-- ==== Sys2Proof/Word.lean ====
section
/-! DEFINITION. The word types of ZNCORE. -/

namespace Sys2Proof

/-- A scalar register, a control register, a command word: XLEN = 32 bits (R8, R21, R90). -/
abbrev Word := BitVec 32

/-- An element of a character buffer: 8 bits (R16, R36). -/
abbrev Char8 := BitVec 8

/-- An element of a symbol buffer or of a Reed-Solomon table: 16 bits (R37, R40). -/
abbrev Sym := BitVec 16

/-- A large-number register: LN_CELLS = 112 one-bit cells, bit `i` is cell `i`, of weight `2^i` (R39, R181). -/
abbrev Large := BitVec 112

end Sys2Proof
end

