-- ==== Sys2Proof/Config.lean ====
section
/-! DEFINITION. The parameters of R8. Those fixed by the source or by the spec are constants here; those marked OPEN are the
fields of `Params`, which the model's user gives (R9). Their defaults stand in Machine/Parameters.lean. -/

namespace Sys2Proof

namespace Config

/-- `BS_APPEND_MAX`, fixed by the source: the largest count of `append_bits` (R135). -/
def bsAppendMax : Nat := 32

/-- `LN_CELLS`, fixed by the source (R39). -/
def lnCells : Nat := 112

/-- `LN_CMP_TOP`, fixed by the source: the highest cell the comparator reads (R190). -/
def lnCmpTop : Nat := 103

/-- `LN_MUL_ITER`, fixed by the source: the iterations of the multiplier (R192). -/
def lnMulIter : Nat := 102

/-- `HIBC_MAX`, fixed by the source: the longest HIBC input (R272). -/
def hibcMax : Nat := 110

/-- `DBE_MAX_BITS`, fixed by the source: the DataBar Expanded cap (R300). -/
def dbeMaxBits : Nat := 252

/-- `SEP`, fixed by the spec (D31): the code of the field-separator marker. -/
def sep : Char8 := 0x1D

/-- `CORE_ID` (D2), readable as control register 16 (R33). -/
def coreId : Word := 0x5A4E4333

end Config

namespace Machine

/-- `DC_CODES`, OPEN (D44): the code values of the compactor's alphabets and latches, and the punctuation sets of
ALPHANUMERIC and ISO (R292, R302 to R306). The widths are the source's, but for the latch into NUMERIC. The codes the source
fixes are no part of it: the numeric pair (R294), the ALPHA-only digits (R305) and the pad code (R325); log 27. -/
structure DcCodes where
  /-- `NUM_TO_ALN` (R302). -/
  numToAln : BitVec 4
  /-- `TO_NUM` (R303). -/
  toNum : Nat
  /-- `TO_NUM_W`, the width of `TO_NUM` in bits (R303). -/
  toNumW : Nat
  /-- `ALN_ISO` (R303). -/
  alnIso : BitVec 5
  /-- `SEP5` (R303). -/
  sep5 : BitVec 5
  /-- `DIGIT5` of the digits 0 to 9 (R303). -/
  digit5 : Vector (BitVec 5) 10
  /-- `ALN6` of the letters A to Z (R303). -/
  aln6 : Vector (BitVec 6) 26
  /-- The ALPHANUMERIC punctuation (R292), each with its `ALN6` (R303). -/
  alnPunct : List (Char8 × BitVec 6)
  /-- `ISO7` of the letters A to Z (R304). -/
  isoUpper : Vector (BitVec 7) 26
  /-- `ISO7` of the letters a to z (R304). -/
  isoLower : Vector (BitVec 7) 26
  /-- The ISO punctuation (R292), each with its `ISO8` (R304). -/
  isoPunct : List (Char8 × BitVec 8)
  /-- The ALPHA-only letters A to Z (R305). -/
  alpUpper : Vector (BitVec 5) 26
  /-- `ALP_END` (R305). -/
  alpEnd : BitVec 5
deriving DecidableEq, Repr

/-- The OPEN parameters (R8, R9): the arguments of the model. A machine carries them in its state and no step changes them
(log 8). `DC_METHOD`, `DC_TARGET_C` and `HOST_BUS` have no value: the host does what they stand for (R8). -/
structure Params where
  /-- `C_MAX` (D6): largest element count of a character buffer. -/
  cMax : Nat
  /-- `S_MAX` (D6): largest element count of a symbol buffer. -/
  sMax : Nat
  /-- `BS_CAP0` (D17): capacity in bytes of a freshly cleared bit stream. -/
  bsCap0 : Nat
  /-- `BS_MAX_BITS` (D6): largest bit length of a bit stream. -/
  bsMaxBits : Nat
  /-- `LN_LOAD_CLEARS` (D20): `LN.LDEC` starts from zero (true) or from the old value (false); R191. -/
  lnLoadClears : Bool
  /-- `RS_M_MAX` (D25): the largest field exponent. -/
  rsMMax : Nat
  /-- `RS_NSYM_MAX` (D25): the largest number of check symbols. -/
  rsNsymMax : Nat
  /-- `AI_MAX` (D39): the largest number of AI records. -/
  aiMax : Nat
  /-- `AI_UNKNOWN_REJECT` (D34): whether an AI value with no length rule is rejected; R266. -/
  aiUnknownReject : Bool
  /-- `C39SET` (D19): the 43-character set, in index order; R165. -/
  c39set : List Char8
  /-- `DC_CODES` (D44). -/
  dcCodes : DcCodes
  /-- `DC_ISO2ALN_RUN` (D46): the look-ahead that sends ISO mode back to ALPHANUMERIC; R296. -/
  dcIso2AlnRun : Nat
  /-- `FOURSTATE_MAP` (D55): for the characters '0' to '3', the presence of a bar in rows 0, 1, 2; R346. -/
  fourstateMap : Vector (Bool × Bool × Bool) 4
  /-- `ROW_MAX` (D6): the most rows of the row store. -/
  rowMax : Nat
  /-- `ROW_LEN_MAX` (D6): the most modules of one row. -/
  rowLenMax : Nat
deriving DecidableEq, Repr

end Machine

end Sys2Proof
end

