-- ==== Sys2Proof/Syntax.lean ====
section
/-! DEFINITION. The commands of ZNCORE-K v1: one constructor per row of R94, with the operands of that row. -/

namespace Sys2Proof

/-- A scalar register number, the field `ra` or `rb` (R90). -/
abbrev RegNum := BitVec 4

/-- A buffer or register index, the sub-field `i0` or `i1` (R91): it selects `C0..C3`, `B0..B3` or `L0..L3`. -/
abbrev Ix := BitVec 2

/-- The compactor's mode (R29, R291): the sub-fields `md` and `m2`, and the register `DCMODE`. -/
inductive DcMode where
  | num | aln | iso | alp
deriving DecidableEq, Repr

/-- The symbology selector `sym` of `DC.ENC` (R299): 0 composite or unlimited, 1 DataBar Expanded. -/
inductive Symbology where
  | cc | dbe
deriving DecidableEq, Repr

/-- The composite mode `cm` of `DC.TGT` (R321): 0 mode A, 1 mode B. -/
inductive CompositeMode where
  | a | b
deriving DecidableEq, Repr

/-- The record field `f` of `AI.GETR` (R275). -/
inductive RecField where
  | value | aiLoc | dataLoc | dataLen
deriving DecidableEq, Repr

/-- A command (R94). The BUF space selector `sp` and the width class `wc` keep their raw bits, because the values 6, 7
and 3 are reserved (R95): `Instr.wellFormed` refuses them. -/
inductive Instr where
  /-- `NOP` (R111). -/
  | nop
  /-- `LI Xa, imm16` (R112). -/
  | li (ra : RegNum) (imm16 : BitVec 16)
  /-- `LUI Xa, imm16` (R113). -/
  | lui (ra : RegNum) (imm16 : BitVec 16)
  /-- `CLRERR` (R114). -/
  | clrerr
  /-- `SRST` (R115). -/
  | srst
  /-- `BCLR sp` (R117). -/
  | bclr (sp : BitVec 3)
  /-- `BPUT Xa, sp` (R118). -/
  | bput (ra : RegNum) (sp : BitVec 3)
  /-- `BGET Xa, Xb, sp` (R119). -/
  | bget (ra rb : RegNum) (sp : BitVec 3)
  /-- `BLEN Xa, sp` (R120). -/
  | blen (ra : RegNum) (sp : BitVec 3)
  /-- `BS.CLR Bb` (R133). -/
  | bsClr (b : Ix)
  /-- `BS.APB Xa, Bb` (R134). -/
  | bsApb (ra : RegNum) (b : Ix)
  /-- `BS.APBS Xa, n, Bb` (R135). -/
  | bsApbs (ra : RegNum) (n6 : BitVec 6) (b : Ix)
  /-- `BS.INS Xa, Xb, Bb` (R136): `ra` the index, `rb` the bit. -/
  | bsIns (ra rb : RegNum) (b : Ix)
  /-- `BS.REM Xa, Xb, Bb` (R137): `ra` the index, `rb` the count. -/
  | bsRem (ra rb : RegNum) (b : Ix)
  /-- `BS.XOR Bb, Bb2` (R138). -/
  | bsXor (b b2 : Ix)
  /-- `BS.GET Xa, Xb, Bb` (R139): `ra` the destination, `rb` the index. -/
  | bsGet (ra rb : RegNum) (b : Ix)
  /-- `BS.SET Xa, Xb, Bb` (R140): `ra` the index, `rb` the bit. -/
  | bsSet (ra rb : RegNum) (b : Ix)
  /-- `BS.TOB Bb, Ck` (R150). -/
  | bsTob (b k : Ix)
  /-- `BS.SIZE Xa, Bb` (R141). -/
  | bsSize (ra : RegNum) (b : Ix)
  /-- `BS.SIZEB Xa, Bb` (R142). -/
  | bsSizeb (ra : RegNum) (b : Ix)
  /-- `CK.MOD10 Xa, Ck` (R162). -/
  | ckMod10 (ra : RegNum) (k : Ix)
  /-- `CK.MOD11 Xa, Ck` (R163). -/
  | ckMod11 (ra : RegNum) (k : Ix)
  /-- `CK.MOD43 Xa, Ck` (R164). -/
  | ckMod43 (ra : RegNum) (k : Ix)
  /-- `CK.OPCC Xa, Ck` (R166). -/
  | ckOpcc (ra : RegNum) (k : Ix)
  /-- `LN.CLR La` (R185). -/
  | lnClr (la : Ix)
  /-- `LN.ADD La, Lb` (R186). -/
  | lnAdd (la lb : Ix)
  /-- `LN.SUB La, Lb` (R187). -/
  | lnSub (la lb : Ix)
  /-- `LN.MUL La, Ck` (R192). -/
  | lnMul (la k : Ix)
  /-- `LN.SHU La` (R188). -/
  | lnShu (la : Ix)
  /-- `LN.SHD La` (R189). -/
  | lnShd (la : Ix)
  /-- `LN.CMP Xa, La, Lb` (R190). -/
  | lnCmp (ra : RegNum) (la lb : Ix)
  /-- `LN.LDEC La, Ck` (R191). -/
  | lnLdec (la k : Ix)
  /-- `LN.GETB Xa, Xb, La` (R193): `ra` the destination, `rb` the cell index. -/
  | lnGetb (ra rb : RegNum) (la : Ix)
  /-- `LN.SETB Xa, Xb, La` (R194): `ra` the bit, `rb` the cell index. -/
  | lnSetb (ra rb : RegNum) (la : Ix)
  /-- `RS.INIT Xa, Xb, index` (R217): `ra` the polynomial, `rb` the symbol count. -/
  | rsInit (ra rb : RegNum) (imm16 : BitVec 16)
  /-- `RS.ENCN Ck` (R219). -/
  | rsEncn (k : Ix)
  /-- `RS.ENCW Ss` (R220). -/
  | rsEncw (s : BitVec 1)
  /-- `RS.GETE Xa, Xb` (R223). -/
  | rsGete (ra rb : RegNum)
  /-- `RS.GETG Xa, Xb` (R224). -/
  | rsGetg (ra rb : RegNum)
  /-- `RS.GETL Xa, Xb` (R225). -/
  | rsGetl (ra rb : RegNum)
  /-- `RS.GETA Xa, Xb` (R226). -/
  | rsGeta (ra rb : RegNum)
  /-- `AI.GS1 Csrc, Cdst` (R270). -/
  | aiGs1 (src dst : Ix)
  /-- `AI.HIBC Csrc, Cdst` (R272). -/
  | aiHibc (src dst : Ix)
  /-- `AI.TILDE Csrc, Cdst` (R273). -/
  | aiTilde (src dst : Ix)
  /-- `AI.CNT Xa` (R274). -/
  | aiCnt (ra : RegNum)
  /-- `AI.GETR Xa, Xb, f` (R275). -/
  | aiGetr (ra rb : RegNum) (f : RecField)
  /-- `DC.ENC Xa, Csrc, Bdst, md, sym` (R299): `ra` the start position. -/
  | dcEnc (ra : RegNum) (src dst : Ix) (md : DcMode) (sym : Symbology)
  /-- `DC.TGT Xa, Bb, Wc, cm` (R321). -/
  | dcTgt (ra : RegNum) (b : Ix) (wc : BitVec 2) (cm : CompositeMode)
  /-- `DC.ECCL Xa, Xb` (R324). -/
  | dcEccl (ra rb : RegNum)
  /-- `DC.PAD Xa, Bb` (R325): `ra` the target length. -/
  | dcPad (ra : RegNum) (b : Ix)
  /-- `DC.GETM Xa` (R326). -/
  | dcGetm (ra : RegNum)
  /-- `DC.SETM m2` (R327). -/
  | dcSetm (m2 : DcMode)
  /-- `SR.CLR` (R342). -/
  | srClr
  /-- `SR.RLE Ck, h8` (R343). -/
  | srRle (k : Ix) (h8 : BitVec 8)
  /-- `SR.FOUR Ck` (R345). -/
  | srFour (k : Ix)
  /-- `SR.NROW Xa` (R347). -/
  | srNrow (ra : RegNum)
  /-- `SR.RLEN Xa, Xb` (R348). -/
  | srRlen (ra rb : RegNum)
  /-- `SR.GETM Xa, Xb, col` (R349). -/
  | srGetm (ra rb : RegNum) (imm16 : BitVec 16)
  /-- `SR.GETH Xa, Xb` (R350). -/
  | srGeth (ra rb : RegNum)
deriving DecidableEq, Repr

end Sys2Proof
end

