-- ==== Sys2Proof/WellFormed.lean ====
section
/-! DEFINITION. Which terms of `Instr` are commands: the reserved field values of R95 (c). -/

namespace Sys2Proof

/-- The space selector of a BUF command is 0 to 5 (R95, R116). -/
def spOk (sp : BitVec 3) : Bool := decide (sp.toNat < 6)

/-- There are three width classes (R95, R321). -/
def wcOk (wc : BitVec 2) : Bool := decide (wc.toNat < 3)

/-- No field holds a reserved value (R95 (c)). Every other field of R94 admits every value of its bits. -/
def Instr.wellFormed : Instr → Bool
  | .bclr sp | .bput _ sp | .bget _ _ sp | .blen _ sp => spOk sp
  | .dcTgt _ _ wc _ => wcOk wc
  | .nop | .li _ _ | .lui _ _ | .clrerr | .srst => true
  | .bsClr _ | .bsApb _ _ | .bsApbs _ _ _ | .bsIns _ _ _ | .bsRem _ _ _ | .bsXor _ _ => true
  | .bsGet _ _ _ | .bsSet _ _ _ | .bsTob _ _ | .bsSize _ _ | .bsSizeb _ _ => true
  | .ckMod10 _ _ | .ckMod11 _ _ | .ckMod43 _ _ | .ckOpcc _ _ => true
  | .lnClr _ | .lnAdd _ _ | .lnSub _ _ | .lnMul _ _ | .lnShu _ | .lnShd _ => true
  | .lnCmp _ _ _ | .lnLdec _ _ | .lnGetb _ _ _ | .lnSetb _ _ _ => true
  | .rsInit _ _ _ | .rsEncn _ | .rsEncw _ | .rsGete _ _ | .rsGetg _ _ | .rsGetl _ _ | .rsGeta _ _ => true
  | .aiGs1 _ _ | .aiHibc _ _ | .aiTilde _ _ | .aiCnt _ | .aiGetr _ _ _ => true
  | .dcEnc _ _ _ _ _ | .dcEccl _ _ | .dcPad _ _ | .dcGetm _ | .dcSetm _ => true
  | .srClr | .srRle _ _ | .srFour _ | .srNrow _ | .srRlen _ _ | .srGetm _ _ _ | .srGeth _ _ => true

end Sys2Proof
end

