-- ==== Sys2Proof/Decode.lean ====
section
/-! DEFINITION. Decoding a command word (R93 to R95) and encoding a command (R90 to R94). -/

namespace Sys2Proof

/-! The numbers of the enumerated fields. -/

/-- The number of a mode (R291). -/
def DcMode.code : DcMode → BitVec 2
  | .num => 0
  | .aln => 1
  | .iso => 2
  | .alp => 3

/-- The mode of a number (R291). -/
def DcMode.ofCode (v : BitVec 2) : DcMode :=
  if v = 0 then .num else if v = 1 then .aln else if v = 2 then .iso else .alp

/-- The bit that selects a symbology (R299). -/
def Symbology.code : Symbology → BitVec 1
  | .cc => 0
  | .dbe => 1

/-- The symbology of a bit (R299). -/
def Symbology.ofCode (v : BitVec 1) : Symbology := if v = 0 then .cc else .dbe

/-- The bit that selects a composite mode (R321). -/
def CompositeMode.code : CompositeMode → BitVec 1
  | .a => 0
  | .b => 1

/-- The composite mode of a bit (R321). -/
def CompositeMode.ofCode (v : BitVec 1) : CompositeMode := if v = 0 then .a else .b

/-- The number of a record field (R275). -/
def RecField.code : RecField → BitVec 2
  | .value => 0
  | .aiLoc => 1
  | .dataLoc => 2
  | .dataLen => 3

/-- The record field of a number (R275). -/
def RecField.ofCode (v : BitVec 2) : RecField :=
  if v = 0 then .value else if v = 1 then .aiLoc else if v = 2 then .dataLoc else .dataLen

/-! The fields of a command word (R90) and the sub-fields of its immediate (R91). -/

/-- `op`, bits 31:24. -/
def opF (w : Word) : BitVec 8 := w.extractLsb' 24 8

/-- `ra`, bits 23:20. -/
def raF (w : Word) : RegNum := w.extractLsb' 20 4

/-- `rb`, bits 19:16. -/
def rbF (w : Word) : RegNum := w.extractLsb' 16 4

/-- `imm`, bits 15:0. -/
def immF (w : Word) : BitVec 16 := w.extractLsb' 0 16

/-- `i0`, imm[1:0]. -/
def i0F (w : Word) : Ix := w.extractLsb' 0 2

/-- `i1`, imm[5:4]. -/
def i1F (w : Word) : Ix := w.extractLsb' 4 2

/-- `n6`, imm[13:8]. -/
def n6F (w : Word) : BitVec 6 := w.extractLsb' 8 6

/-- `sp`, imm[2:0]. -/
def spF (w : Word) : BitVec 3 := w.extractLsb' 0 3

/-- `s`, imm[0]. -/
def sF (w : Word) : BitVec 1 := w.extractLsb' 0 1

/-- `f`, imm[1:0]. -/
def fF (w : Word) : BitVec 2 := w.extractLsb' 0 2

/-- `md`, imm[9:8]. -/
def mdF (w : Word) : BitVec 2 := w.extractLsb' 8 2

/-- `sym`, imm[12]. -/
def symF (w : Word) : BitVec 1 := w.extractLsb' 12 1

/-- `cm`, imm[8]. -/
def cmF (w : Word) : BitVec 1 := w.extractLsb' 8 1

/-- `h8`, imm[15:8]. -/
def h8F (w : Word) : BitVec 8 := w.extractLsb' 8 8

/-- `m2`, imm[1:0]. -/
def m2F (w : Word) : BitVec 2 := w.extractLsb' 0 2

/-! Decoding. -/

/-- Why a word is no command: the three cases (a), (b), (c) of R95. -/
inductive DecodeError where
  /-- (a) its `op` is in no row of R94. -/
  | unassignedOpcode
  /-- (b) a must-be-zero bit is not zero. -/
  | mustBeZero
  /-- (c) a field holds a reserved value. -/
  | reservedField
deriving DecidableEq, Repr

/-- The row's test `(w and mask) = match` (R93), then the reserved values of R95 (c). -/
def checked (w mask pattern : Word) (i : Instr) : Except DecodeError Instr :=
  if w &&& mask = pattern then
    if i.wellFormed then .ok i else .error .reservedField
  else .error .mustBeZero

/-- R93 over the table of R94: the row is found by `op`, then its mask and match are tested, then its fields are
extracted. -/
def decode (w : Word) : Except DecodeError Instr :=
  match (opF w).toNat with
  | 0x00 => checked w 0xFFFFFFFF 0x00000000 .nop
  | 0x01 => checked w 0xFF0F0000 0x01000000 (.li (raF w) (immF w))
  | 0x02 => checked w 0xFF0F0000 0x02000000 (.lui (raF w) (immF w))
  | 0x03 => checked w 0xFFFFFFFF 0x03000000 .clrerr
  | 0x04 => checked w 0xFFFFFFFF 0x04000000 .srst
  | 0x08 => checked w 0xFFFFFFF8 0x08000000 (.bclr (spF w))
  | 0x09 => checked w 0xFF0FFFF8 0x09000000 (.bput (raF w) (spF w))
  | 0x0A => checked w 0xFF00FFF8 0x0A000000 (.bget (raF w) (rbF w) (spF w))
  | 0x0B => checked w 0xFF0FFFF8 0x0B000000 (.blen (raF w) (spF w))
  | 0x10 => checked w 0xFFFFFFFC 0x10000000 (.bsClr (i0F w))
  | 0x11 => checked w 0xFF0FFFFC 0x11000000 (.bsApb (raF w) (i0F w))
  | 0x12 => checked w 0xFF0FC0FC 0x12000000 (.bsApbs (raF w) (n6F w) (i0F w))
  | 0x13 => checked w 0xFF00FFFC 0x13000000 (.bsIns (raF w) (rbF w) (i0F w))
  | 0x14 => checked w 0xFF00FFFC 0x14000000 (.bsRem (raF w) (rbF w) (i0F w))
  | 0x15 => checked w 0xFFFFFFCC 0x15000000 (.bsXor (i0F w) (i1F w))
  | 0x16 => checked w 0xFF00FFFC 0x16000000 (.bsGet (raF w) (rbF w) (i0F w))
  | 0x17 => checked w 0xFF00FFFC 0x17000000 (.bsSet (raF w) (rbF w) (i0F w))
  | 0x18 => checked w 0xFFFFFFCC 0x18000000 (.bsTob (i0F w) (i1F w))
  | 0x19 => checked w 0xFF0FFFFC 0x19000000 (.bsSize (raF w) (i0F w))
  | 0x1A => checked w 0xFF0FFFFC 0x1A000000 (.bsSizeb (raF w) (i0F w))
  | 0x20 => checked w 0xFF0FFFFC 0x20000000 (.ckMod10 (raF w) (i0F w))
  | 0x21 => checked w 0xFF0FFFFC 0x21000000 (.ckMod11 (raF w) (i0F w))
  | 0x22 => checked w 0xFF0FFFFC 0x22000000 (.ckMod43 (raF w) (i0F w))
  | 0x23 => checked w 0xFF0FFFFC 0x23000000 (.ckOpcc (raF w) (i0F w))
  | 0x30 => checked w 0xFFFFFFFC 0x30000000 (.lnClr (i0F w))
  | 0x31 => checked w 0xFFFFFFCC 0x31000000 (.lnAdd (i0F w) (i1F w))
  | 0x32 => checked w 0xFFFFFFCC 0x32000000 (.lnSub (i0F w) (i1F w))
  | 0x33 => checked w 0xFFFFFFCC 0x33000000 (.lnMul (i0F w) (i1F w))
  | 0x34 => checked w 0xFFFFFFFC 0x34000000 (.lnShu (i0F w))
  | 0x35 => checked w 0xFFFFFFFC 0x35000000 (.lnShd (i0F w))
  | 0x36 => checked w 0xFF0FFFCC 0x36000000 (.lnCmp (raF w) (i0F w) (i1F w))
  | 0x37 => checked w 0xFFFFFFCC 0x37000000 (.lnLdec (i0F w) (i1F w))
  | 0x38 => checked w 0xFF00FFFC 0x38000000 (.lnGetb (raF w) (rbF w) (i0F w))
  | 0x39 => checked w 0xFF00FFFC 0x39000000 (.lnSetb (raF w) (rbF w) (i0F w))
  | 0x40 => checked w 0xFF000000 0x40000000 (.rsInit (raF w) (rbF w) (immF w))
  | 0x41 => checked w 0xFFFFFFFC 0x41000000 (.rsEncn (i0F w))
  | 0x42 => checked w 0xFFFFFFFE 0x42000000 (.rsEncw (sF w))
  | 0x43 => checked w 0xFF00FFFF 0x43000000 (.rsGete (raF w) (rbF w))
  | 0x44 => checked w 0xFF00FFFF 0x44000000 (.rsGetg (raF w) (rbF w))
  | 0x45 => checked w 0xFF00FFFF 0x45000000 (.rsGetl (raF w) (rbF w))
  | 0x46 => checked w 0xFF00FFFF 0x46000000 (.rsGeta (raF w) (rbF w))
  | 0x50 => checked w 0xFFFFFFCC 0x50000000 (.aiGs1 (i0F w) (i1F w))
  | 0x51 => checked w 0xFFFFFFCC 0x51000000 (.aiHibc (i0F w) (i1F w))
  | 0x52 => checked w 0xFFFFFFCC 0x52000000 (.aiTilde (i0F w) (i1F w))
  | 0x53 => checked w 0xFF0FFFFF 0x53000000 (.aiCnt (raF w))
  | 0x54 => checked w 0xFF00FFFC 0x54000000 (.aiGetr (raF w) (rbF w) (RecField.ofCode (fF w)))
  | 0x60 => checked w 0xFF0FECCC 0x60000000 (.dcEnc (raF w) (i0F w) (i1F w) (DcMode.ofCode (mdF w)) (Symbology.ofCode (symF w)))
  | 0x61 => checked w 0xFF0FFECC 0x61000000 (.dcTgt (raF w) (i0F w) (i1F w) (CompositeMode.ofCode (cmF w)))
  | 0x62 => checked w 0xFF00FFFF 0x62000000 (.dcEccl (raF w) (rbF w))
  | 0x63 => checked w 0xFF0FFFFC 0x63000000 (.dcPad (raF w) (i0F w))
  | 0x64 => checked w 0xFF0FFFFF 0x64000000 (.dcGetm (raF w))
  | 0x65 => checked w 0xFFFFFFFC 0x65000000 (.dcSetm (DcMode.ofCode (m2F w)))
  | 0x70 => checked w 0xFFFFFFFF 0x70000000 .srClr
  | 0x71 => checked w 0xFFFF00FC 0x71000000 (.srRle (i0F w) (h8F w))
  | 0x72 => checked w 0xFFFFFFFC 0x72000000 (.srFour (i0F w))
  | 0x73 => checked w 0xFF0FFFFF 0x73000000 (.srNrow (raF w))
  | 0x74 => checked w 0xFF00FFFF 0x74000000 (.srRlen (raF w) (rbF w))
  | 0x75 => checked w 0xFF000000 0x75000000 (.srGetm (raF w) (rbF w) (immF w))
  | 0x76 => checked w 0xFF00FFFF 0x76000000 (.srGeth (raF w) (rbF w))
  | _ => .error .unassignedOpcode

/-! Encoding. -/

/-- Format K (R90): `op`, `ra`, `rb`, `imm` from the most significant bits down. -/
def kword (op : BitVec 8) (ra rb : RegNum) (imm : BitVec 16) : Word := op ++ ra ++ rb ++ imm

/-- The word of a command, from the rows of R94 and the sub-fields of R91. Where a term of `Instr` holds a reserved
value, this is the illegal word that holds it. -/
def encode : Instr → Word
  | .nop => kword 0x00 0 0 0
  | .li ra imm16 => kword 0x01 ra 0 imm16
  | .lui ra imm16 => kword 0x02 ra 0 imm16
  | .clrerr => kword 0x03 0 0 0
  | .srst => kword 0x04 0 0 0
  | .bclr sp => kword 0x08 0 0 (0#13 ++ sp)
  | .bput ra sp => kword 0x09 ra 0 (0#13 ++ sp)
  | .bget ra rb sp => kword 0x0A ra rb (0#13 ++ sp)
  | .blen ra sp => kword 0x0B ra 0 (0#13 ++ sp)
  | .bsClr b => kword 0x10 0 0 (0#14 ++ b)
  | .bsApb ra b => kword 0x11 ra 0 (0#14 ++ b)
  | .bsApbs ra n6 b => kword 0x12 ra 0 (0#2 ++ n6 ++ 0#6 ++ b)
  | .bsIns ra rb b => kword 0x13 ra rb (0#14 ++ b)
  | .bsRem ra rb b => kword 0x14 ra rb (0#14 ++ b)
  | .bsXor b b2 => kword 0x15 0 0 (0#10 ++ b2 ++ 0#2 ++ b)
  | .bsGet ra rb b => kword 0x16 ra rb (0#14 ++ b)
  | .bsSet ra rb b => kword 0x17 ra rb (0#14 ++ b)
  | .bsTob b k => kword 0x18 0 0 (0#10 ++ k ++ 0#2 ++ b)
  | .bsSize ra b => kword 0x19 ra 0 (0#14 ++ b)
  | .bsSizeb ra b => kword 0x1A ra 0 (0#14 ++ b)
  | .ckMod10 ra k => kword 0x20 ra 0 (0#14 ++ k)
  | .ckMod11 ra k => kword 0x21 ra 0 (0#14 ++ k)
  | .ckMod43 ra k => kword 0x22 ra 0 (0#14 ++ k)
  | .ckOpcc ra k => kword 0x23 ra 0 (0#14 ++ k)
  | .lnClr la => kword 0x30 0 0 (0#14 ++ la)
  | .lnAdd la lb => kword 0x31 0 0 (0#10 ++ lb ++ 0#2 ++ la)
  | .lnSub la lb => kword 0x32 0 0 (0#10 ++ lb ++ 0#2 ++ la)
  | .lnMul la k => kword 0x33 0 0 (0#10 ++ k ++ 0#2 ++ la)
  | .lnShu la => kword 0x34 0 0 (0#14 ++ la)
  | .lnShd la => kword 0x35 0 0 (0#14 ++ la)
  | .lnCmp ra la lb => kword 0x36 ra 0 (0#10 ++ lb ++ 0#2 ++ la)
  | .lnLdec la k => kword 0x37 0 0 (0#10 ++ k ++ 0#2 ++ la)
  | .lnGetb ra rb la => kword 0x38 ra rb (0#14 ++ la)
  | .lnSetb ra rb la => kword 0x39 ra rb (0#14 ++ la)
  | .rsInit ra rb imm16 => kword 0x40 ra rb imm16
  | .rsEncn k => kword 0x41 0 0 (0#14 ++ k)
  | .rsEncw s => kword 0x42 0 0 (0#15 ++ s)
  | .rsGete ra rb => kword 0x43 ra rb 0
  | .rsGetg ra rb => kword 0x44 ra rb 0
  | .rsGetl ra rb => kword 0x45 ra rb 0
  | .rsGeta ra rb => kword 0x46 ra rb 0
  | .aiGs1 src dst => kword 0x50 0 0 (0#10 ++ dst ++ 0#2 ++ src)
  | .aiHibc src dst => kword 0x51 0 0 (0#10 ++ dst ++ 0#2 ++ src)
  | .aiTilde src dst => kword 0x52 0 0 (0#10 ++ dst ++ 0#2 ++ src)
  | .aiCnt ra => kword 0x53 ra 0 0
  | .aiGetr ra rb f => kword 0x54 ra rb (0#14 ++ f.code)
  | .dcEnc ra src dst md sym => kword 0x60 ra 0 (0#3 ++ sym.code ++ 0#2 ++ md.code ++ 0#2 ++ dst ++ 0#2 ++ src)
  | .dcTgt ra b wc cm => kword 0x61 ra 0 (0#7 ++ cm.code ++ 0#2 ++ wc ++ 0#2 ++ b)
  | .dcEccl ra rb => kword 0x62 ra rb 0
  | .dcPad ra b => kword 0x63 ra 0 (0#14 ++ b)
  | .dcGetm ra => kword 0x64 ra 0 0
  | .dcSetm m2 => kword 0x65 0 0 (0#14 ++ m2.code)
  | .srClr => kword 0x70 0 0 0
  | .srRle k h8 => kword 0x71 0 0 (h8 ++ 0#6 ++ k)
  | .srFour k => kword 0x72 0 0 (0#14 ++ k)
  | .srNrow ra => kword 0x73 ra 0 0
  | .srRlen ra rb => kword 0x74 ra rb 0
  | .srGetm ra rb imm16 => kword 0x75 ra rb imm16
  | .srGeth ra rb => kword 0x76 ra rb 0

/-! The opcode table's view. -/

/-- The command the decoder reads from an instruction whose bits are `w`, `nbits` of them given by the table, every
bit above them zero. A command word crosses the host port whole (R67), so its bits are the word. -/
def decodeTableWord (nbits w : Nat) : Option Instr :=
  match decode (BitVec.ofNat 32 (w % 2 ^ nbits)) with
  | .ok i => some i
  | .error _ => none

end Sys2Proof
end

