-- ==== Sys2Proof/Machine/Parameters.lean ====
section
/-! DEFINITION. The defaults of the OPEN parameters, as R8 and the rules it names show them (log 8, log 9). -/

namespace Sys2Proof.Machine

/-- `C39SET` (R165): the digits, the letters, then `- . space $ / + %`. -/
def defaultC39set : List Char8 :=
  [0x30, 0x31, 0x32, 0x33, 0x34, 0x35, 0x36, 0x37, 0x38, 0x39,
   0x41, 0x42, 0x43, 0x44, 0x45, 0x46, 0x47, 0x48, 0x49, 0x4A, 0x4B, 0x4C, 0x4D,
   0x4E, 0x4F, 0x50, 0x51, 0x52, 0x53, 0x54, 0x55, 0x56, 0x57, 0x58, 0x59, 0x5A,
   0x2D, 0x2E, 0x20, 0x24, 0x2F, 0x2B, 0x25]

/-- `DC_CODES` (R302 to R306). Digits, separator and letters are consecutive codes from the one given first: `DIGIT5(c) =
c - 43`, `ALN6(c) = c - 33`, `ISO7(c) = c - 1` and `c - 7`, ALPHA-only `c - 65`. -/
def defaultDcCodes : DcCodes :=
  { numToAln := 0
    toNum := 0
    toNumW := 3
    alnIso := 4
    sep5 := 15
    digit5 := #v[5, 6, 7, 8, 9, 10, 11, 12, 13, 14]
    aln6 := #v[32, 33, 34, 35, 36, 37, 38, 39, 40, 41, 42, 43, 44, 45, 46, 47, 48, 49, 50, 51, 52, 53, 54, 55, 56, 57]
    alnPunct := [(0x2A, 58), (0x2C, 59), (0x2D, 60), (0x2E, 61), (0x2F, 62)]
    isoUpper := #v[64, 65, 66, 67, 68, 69, 70, 71, 72, 73, 74, 75, 76, 77, 78, 79, 80, 81, 82, 83, 84, 85, 86, 87, 88, 89]
    isoLower :=
      #v[90, 91, 92, 93, 94, 95, 96, 97, 98, 99, 100, 101, 102, 103, 104, 105, 106, 107, 108, 109, 110, 111, 112, 113,
         114, 115]
    isoPunct :=
      [(0x21, 232), (0x22, 233),
       (0x25, 234), (0x26, 235), (0x27, 236), (0x28, 237), (0x29, 238), (0x2A, 239), (0x2B, 240), (0x2C, 241), (0x2D, 242),
       (0x2E, 243), (0x2F, 244),
       (0x3A, 245), (0x3B, 246), (0x3C, 247), (0x3D, 248), (0x3E, 249), (0x3F, 250),
       (0x5F, 251), (0x20, 252)]
    alpUpper := #v[0, 1, 2, 3, 4, 5, 6, 7, 8, 9, 10, 11, 12, 13, 14, 15, 16, 17, 18, 19, 20, 21, 22, 23, 24, 25]
    alpEnd := 31 }

/-- `FOURSTATE_MAP` (R346): full bar, ascender, descender, tracker. -/
def defaultFourstateMap : Vector (Bool × Bool × Bool) 4 :=
  #v[(true, true, true), (true, true, false), (false, true, true), (false, true, false)]

/-- The defaults of R8. -/
def defaultParams : Params :=
  { cMax := 4096
    sMax := 4096
    bsCap0 := 32
    bsMaxBits := 65536
    lnLoadClears := true
    rsMMax := 12
    rsNsymMax := 1024
    aiMax := 100
    aiUnknownReject := false
    c39set := defaultC39set
    dcCodes := defaultDcCodes
    dcIso2AlnRun := 5
    fourstateMap := defaultFourstateMap
    rowMax := 128
    rowLenMax := 4096 }

end Sys2Proof.Machine
end

