-- ==== Sys2Proof/Machine/State.lean ====
section
/-! DEFINITION. The state of one ZNCORE instance (R20), its reset value (R46), and the reasons a step can stop. -/

namespace Sys2Proof.Machine

/-- The error kinds of R360. Kind OK (code 0) is not an error and is no constructor. -/
inductive ErrorKind where
  /-- 1: a character outside the permitted set (R361). -/
  | invalidCharacter
  /-- 2: a structural violation of a GS1 message (R362). -/
  | invalidFormat
  /-- 3: longer than a cap (R363). -/
  | lengthExceeded
  /-- 4: bit streams of different lengths (R364). -/
  | sizeMismatch
  /-- 5: an index outside its bounds (R365). -/
  | outOfRange
  /-- 6: no table entry fits, or no such field (R366). -/
  | unsupportedConfiguration
  /-- 7: a non-digit in a decimal string (R367). -/
  | invalidInput
  /-- 8: the word is no command (R368). -/
  | illegalCommand
deriving DecidableEq, Repr

/-- A bit stream (R38, R130): the bits, index 0 first, and the capacity in bytes. -/
structure BitStream where
  bits : List Bool
  cap : Nat
deriving DecidableEq, Repr

/-- An entry of the log or anti-log table: the value if its `written` bit is 1, `none` if it is 0 (R40, U3). -/
abbrev TableEntry := Option Sym

/-- The Reed-Solomon configuration registers (R30) and tables (R40). -/
structure RsUnit where
  /-- `RSVALID`. -/
  valid : Bool
  /-- `RSPOLY`. -/
  poly : BitVec 17
  /-- `RSM`. -/
  m : BitVec 5
  /-- `RSLOGMOD`. -/
  logmod : BitVec 16
  /-- `RSNSYM`. -/
  nsym : BitVec 16
  /-- `RSIDX`. -/
  idx : BitVec 16
  /-- `rs.log`. -/
  log : List TableEntry
  /-- `rs.alog`. -/
  alog : List TableEntry
  /-- `rs.gen`, the coefficient of `x^0` first. -/
  gen : List Sym
  /-- `rs.ecc`, cell 0 first. -/
  ecc : List Sym
deriving DecidableEq, Repr

/-- An AI record (R41). -/
structure AiRecord where
  value : BitVec 14
  aiLoc : BitVec 16
  dataLoc : BitVec 16
  dataLen : BitVec 16
deriving DecidableEq, Repr

/-- A module cell as the five-way variant R351 offers: cell values 0 to 4 in this order (R341). -/
inductive Module where
  | space | bar | guardNormal | guardExtended | guardShort
deriving DecidableEq, Repr

/-- A symbol row (R42, R340): its modules and its height in half units (R352). -/
structure Row where
  mods : List Module
  h : BitVec 8
deriving DecidableEq, Repr

/-- What the host can do to ZNCORE between two commands (R12, R71, R73, R400). A host read changes nothing (R63) and is
no move. -/
inductive HostMove where
  /-- Issue a command word (R73). -/
  | issue (w : Word)
  /-- Write `X[r]`. -/
  | writeX (r : RegNum) (v : Word)
  /-- Replace the whole contents of `C[k]`. -/
  | loadC (k : Ix) (cs : List Char8)
  /-- Write one existing element of `C[k]`. -/
  | pokeC (k : Ix) (i : Nat) (v : Char8)
  /-- Replace the whole contents of `S[j]`. -/
  | loadS (j : BitVec 1) (vs : List Sym)
  /-- Write one existing element of `S[j]`. -/
  | pokeS (j : BitVec 1) (i : Nat) (v : Sym)
  /-- Replace the contents of `B[b]`. -/
  | loadB (b : Ix) (bits : List Bool)
  /-- Write cell `i` of `L[r]`. -/
  | pokeL (r : Ix) (i : Nat) (v : Bool)
  /-- Write `DCMODE[1:0]`. -/
  | writeMode (m : DcMode)
  /-- Append rows to the row store. -/
  | appendRows (rs : List Row)
  /-- Clear the row store. -/
  | clearRows
  /-- Assert and release `rst` (R400). -/
  | reset
deriving DecidableEq, Repr

/-- The state of one ZNCORE instance: everything R20 lists, and two fields that are the model's own: `cfg` and `host`.
`AICNT`, `SRNROW`, `BSCAP0..3` and `ID` are views of `air`, `rows`, `b` and a constant (R31 to R34). -/
structure State where
  /-- The OPEN parameters this machine was given (R8, R9): the model's own field, which no step changes (log 8). -/
  cfg : Params
  /-- `X[0..15]` (R21). -/
  x : Vector Word 16
  /-- `ST` (R25). -/
  st : Word
  /-- `EF` (R26). -/
  ef : Word
  /-- `ECMD` (R27). -/
  ecmd : Word
  /-- `DCMODE` (R29). -/
  dcmode : DcMode
  /-- `C[0..3]` (R36). -/
  c : Vector (List Char8) 4
  /-- `S[0..1]` (R37). -/
  sy : Vector (List Sym) 2
  /-- `B[0..3]` (R38). -/
  b : Vector BitStream 4
  /-- `L[0..3]` (R39). -/
  l : Vector Large 4
  /-- The Reed-Solomon registers and tables (R30, R40). -/
  rs : RsUnit
  /-- The AI records (R41). -/
  air : List AiRecord
  /-- The row store (R42). -/
  rows : List Row
  /-- The moves the host makes next, in order: the model's own field (R24: the list lives in the host). -/
  host : List HostMove
deriving DecidableEq, Repr

/-- Where a step stops with a fault. No command raises one: every command succeeds or fails with a kind (R110). -/
inductive Fault where
  /-- A host-port write names an element at or beyond the length of its space: an address that does not exist (R60,
  R70, U11: the model gives the host no such move). Raised by `hostMove`; safe, the machine goes no further. -/
  | noSuchElement
deriving DecidableEq, Repr

/-- Why the model has no meaning for a step. -/
inductive Refusal where
  /-- An instruction without a meaning: raised by `exec`'s refused arms alone; safe. No arm is refused. -/
  | notModelled (mnemonic : String)
  /-- A host-port write outside R71's moves: contents longer than the space's maximum. Raised by `hostMove`; safe. -/
  | hostMoveNotOffered
deriving DecidableEq, Repr

/-- A freshly cleared bit stream: no bits, capacity `BS_CAP0` (R38, R133). -/
def BitStream.fresh (cap0 : Nat) : BitStream := { bits := [], cap := cap0 }

/-- The Reed-Solomon unit with nothing built: `RSVALID = 0`, the spaces of length 0 (R46, R61). -/
def RsUnit.empty : RsUnit :=
  { valid := false, poly := 0, m := 0, logmod := 0, nsym := 0, idx := 0, log := [], alog := [], gen := [], ecc := [] }

/-- The state after reset (R46, R400) of a machine with the parameters `p`; the host has not issued anything. -/
def State.resetWith (p : Params) : State :=
  { cfg := p
    x := Vector.replicate 16 0
    st := 0
    ef := 0
    ecmd := 0
    dcmode := .num
    c := Vector.replicate 4 []
    sy := Vector.replicate 2 []
    b := Vector.replicate 4 (BitStream.fresh p.bsCap0)
    l := Vector.replicate 4 0
    rs := RsUnit.empty
    air := []
    rows := []
    host := [] }

/-- The state after reset of the machine with the default parameters (R8). -/
def State.reset : State := State.resetWith defaultParams

end Sys2Proof.Machine
end

