-- ==== Sys2Proof/Machine/Flags.lean ====
section
/-! DEFINITION. The status registers `ST` and `EF` (R25, R26): the only flag-like state (R28). -/

namespace Sys2Proof.Machine

/-- The code of an error kind (R360): the value of `ST.code` and the bit number in `EF`. -/
def ErrorKind.code : ErrorKind → BitVec 4
  | .invalidCharacter => 1
  | .invalidFormat => 2
  | .lengthExceeded => 3
  | .sizeMismatch => 4
  | .outOfRange => 5
  | .unsupportedConfiguration => 6
  | .invalidInput => 7
  | .illegalCommand => 8

/-- `ST` after a command that failed with kind `k`: the code in bits 3:0, the rest zero (R25, R370). -/
def failStatus (k : ErrorKind) : Word := k.code.setWidth 32

/-- `ST` after a command that succeeded: code 0 (R25, R110). -/
def okStatus : Word := 0

/-- The sticky bit of kind `k` in `EF` (R26, R370). -/
def stickyBit (k : ErrorKind) : Word := 1#32 <<< k.code.toNat

/-- `ST.code`, bits 3:0 of `ST` (R25). -/
def stCode (st : Word) : BitVec 4 := st.extractLsb' 0 4

end Sys2Proof.Machine
end

