-- ==== Sys2Proof/Machine/Ops.lean ====
section
/-! DEFINITION. The named operations over registers and buffers, and how a command ends: the one success and the one
failure that every command shares (R110, R370, R372). There is no return from a failure (R373): the host issues the
next word. -/

namespace Sys2Proof.Machine

/-! Scalar registers (R21). -/

/-- Read `X[r]`. -/
def State.getX (s : State) (r : RegNum) : Word := s.x[r.toNat]'(r.isLt)

/-- `X[r] <- v`. -/
def State.setX (s : State) (r : RegNum) (v : Word) : State := { s with x := s.x.set r.toNat v r.isLt }

/-! Character and symbol buffers (R36, R37). -/

/-- The contents of `C[k]`. -/
def State.getC (s : State) (k : Ix) : List Char8 := s.c[k.toNat]'(k.isLt)

/-- `C[k] <- cs`. -/
def State.setC (s : State) (k : Ix) (cs : List Char8) : State := { s with c := s.c.set k.toNat cs k.isLt }

/-- The contents of `S[j]`. -/
def State.getS (s : State) (j : BitVec 1) : List Sym := s.sy[j.toNat]'(j.isLt)

/-- `S[j] <- vs`. -/
def State.setS (s : State) (j : BitVec 1) (vs : List Sym) : State := { s with sy := s.sy.set j.toNat vs j.isLt }

/-! Bit streams (R38). -/

/-- The bit stream `B[b]`. -/
def State.getB (s : State) (b : Ix) : BitStream := s.b[b.toNat]'(b.isLt)

/-- `B[b] <- v`. -/
def State.setB (s : State) (b : Ix) (v : BitStream) : State := { s with b := s.b.set b.toNat v b.isLt }

/-- Doubling (R131): while `8 * cap < size`, `cap <- 2 * cap`. From a capacity of at least one byte, `size` turns
always reach the size, so that many turns are the loop (log 18). -/
def growCap : Nat → Nat → Nat → Nat
  | 0, cap, _ => cap
  | turns + 1, cap, size => if 8 * cap < size then growCap turns (2 * cap) size else cap

/-- The stream with new bits; the capacity grows only when the size does (R131). -/
def BitStream.withBits (v : BitStream) (bits : List Bool) : BitStream :=
  { bits := bits
    cap := if v.bits.length < bits.length then growCap bits.length v.cap bits.length else v.cap }

/-- A command's enlarged bits: `LengthExceeded` beyond `BS_MAX_BITS` (R131). -/
def BitStream.grown (v : BitStream) (maxBits : Nat) (bits : List Bool) : Except ErrorKind BitStream :=
  if maxBits < bits.length then .error .lengthExceeded else .ok (v.withBits bits)

/-- The low `n` bits of a value, the most significant of them first (R65, R135). -/
def msbBits (v n : Nat) : List Bool := ((List.range n).reverse).map v.testBit

/-! Large-number registers (R39). -/

/-- The value of `L[r]`, cell `i` at bit `i`. -/
def State.getL (s : State) (r : Ix) : Large := s.l[r.toNat]'(r.isLt)

/-- `L[r] <- v`. -/
def State.setL (s : State) (r : Ix) (v : Large) : State := { s with l := s.l.set r.toNat v r.isLt }

/-! The other units' state. -/

/-- Replace the Reed-Solomon registers and tables. -/
def State.setRs (s : State) (v : RsUnit) : State := { s with rs := v }

/-- `DCMODE <- m`. -/
def State.setMode (s : State) (m : DcMode) : State := { s with dcmode := m }

/-- Replace the AI records, and with them `AICNT`. -/
def State.setAir (s : State) (v : List AiRecord) : State := { s with air := v }

/-- Replace the row store, and with it `SRNROW`. -/
def State.setRows (s : State) (v : List Row) : State := { s with rows := v }

/-- `EF <- 0` (R114). -/
def State.clearEf (s : State) : State := { s with ef := 0 }

/-- Every piece of the spec's state at its reset value (R46, R115, R401); the parameters and the host's own list of moves
stay. -/
def State.resetAll (s : State) : State := { State.resetWith s.cfg with host := s.host }

/-! How a command ends. -/

/-- Success: `ST.code <- 0`, `EF` and `ECMD` unchanged (R110). -/
def State.succeed (s : State) : State := { s with st := okStatus }

/-- Failure with kind `k` of the command word `w` (R370): `ST.code <- k`, `EF[k] <- 1`, `ECMD <- w`, and nothing else
(R372). -/
def State.raise (s : State) (k : ErrorKind) (w : Word) : State :=
  { s with st := failStatus k, ef := s.ef ||| stickyBit k, ecmd := w }

/-- The end of every command (R110): `s` is the state before it, `i` the command, and the result is either the state
its Operation leaves or the first error kind that holds. `ECMD` takes the one word of `i` (log 4). -/
def finish (s : State) (i : Instr) (result : Except ErrorKind State) : Host.Outcome State Fault Refusal :=
  match result with
  | .ok t => .next t.succeed
  | .error k => .next (s.raise k (encode i))

/-- An illegal word executes nothing and fails with `IllegalCommand` (R95, R368). -/
def illegalWord (s : State) (w : Word) : Host.Outcome State Fault Refusal :=
  .next (s.raise .illegalCommand w)

end Sys2Proof.Machine
end

