-- ==== Sys2Proof/Machine/Operands.lean ====
section
/-! DEFINITION. The operand forms: registers, bits, immediates (R22, R23, R92) and the BUF space selector (R116). -/

namespace Sys2Proof.Machine

/-- A register operand used as a number: the full 32-bit unsigned value (R92, R132). -/
def State.num (s : State) (r : RegNum) : Nat := (s.getX r).toNat

/-- A bit operand: bit 0 of the register, bits 31 to 1 ignored (R23). -/
def State.bitOf (s : State) (r : RegNum) : Bool := (s.getX r).getLsbD 0

/-- A returned bit, zero-extended (R23). -/
def bitWord (v : Bool) : Word := if v then 1 else 0

/-- A number returned in a register, reduced to 32 bits (R15). -/
def natWord (n : Nat) : Word := BitVec.ofNat 32 n

/-- A 16-bit immediate used as a number, zero-extended (R92). -/
def immWord (imm16 : BitVec 16) : Word := imm16.setWidth 32

/-- The buffer a BUF command selects (R116). -/
inductive BufRef where
  | chars (k : Ix)
  | syms (j : BitVec 1)
deriving DecidableEq, Repr

/-- The space selector `sp`: 0..3 select `C[0]..C[3]`, 4..5 select `S[0]..S[1]`, 6 and 7 are reserved (R116). -/
def bufRef (sp : BitVec 3) : Option BufRef :=
  if sp.toNat < 4 then some (.chars (BitVec.ofNat 2 sp.toNat))
  else if sp.toNat < 6 then some (.syms (BitVec.ofNat 1 (sp.toNat - 4)))
  else none

/-- `W(sp)`, the element width (R116). -/
def BufRef.width : BufRef → Nat
  | .chars _ => 8
  | .syms _ => 16

/-- `MAX(sp)`, the maximum length (R116). -/
def BufRef.max (p : Params) : BufRef → Nat
  | .chars _ => p.cMax
  | .syms _ => p.sMax

/-- `len(buf)`. -/
def State.bufLen (s : State) : BufRef → Nat
  | .chars k => (s.getC k).length
  | .syms j => (s.getS j).length

/-- `zext_32(MemRead(sp:i, 1))`, where the element exists (R60, R119). -/
def State.bufRead (s : State) (r : BufRef) (i : Nat) : Option Word :=
  match r with
  | .chars k => (s.getC k)[i]?.map (BitVec.setWidth 32)
  | .syms j => (s.getS j)[i]?.map (BitVec.setWidth 32)

/-- The selected buffer becomes empty (R117). -/
def State.bufClear (s : State) : BufRef → State
  | .chars k => s.setC k []
  | .syms j => s.setS j []

/-- `buf <- buf ++ [v[W(sp)-1:0]]` (R118). -/
def State.bufAppend (s : State) (r : BufRef) (v : Word) : State :=
  match r with
  | .chars k => s.setC k (s.getC k ++ [v.setWidth 8])
  | .syms j => s.setS j (s.getS j ++ [v.setWidth 16])

/-- A BUF command on its selected buffer; a reserved `sp` is an illegal command (R95 (c), log 5). -/
def withBuf (sp : BitVec 3) (f : BufRef → Except ErrorKind State) : Except ErrorKind State :=
  match bufRef sp with
  | some r => f r
  | none => .error .illegalCommand

/-! Character classes and values used by several units (R16). -/

/-- `isdigit(c)` (R16). -/
def isDigit (c : Char8) : Bool := 0x30 ≤ c.toNat && c.toNat ≤ 0x39

/-- `dval(c) = c - 0x30` (R16). -/
def dval (c : Char8) : Nat := c.toNat - 0x30

/-- The decimal number a digit string spells, first character most significant (R66). -/
def decimal (cs : List Char8) : Nat := cs.foldl (fun v c => 10 * v + dval c) 0

/-- The code of a digit `0..9` as a register value: `0x30 + d`. -/
def digitWord (d : Nat) : Word := natWord (0x30 + d)

end Sys2Proof.Machine
end

