-- ==== Sys2Proof/Machine/Tables.lean ====
section
/-! DEFINITION. The constant tables (R43), and how the tables that are OPEN parameters (`C39SET`, `DC_CODES`,
`FOURSTATE_MAP`) are read. -/

namespace Sys2Proof.Machine

/-! The 43-character set (R165), a parameter. -/

/-- Membership in `C39SET`. -/
def inC39 (set : List Char8) (c : Char8) : Bool := set.contains c

/-- `idx43(c)`: the position of `c` in `C39SET` (R164). -/
def idx43 (set : List Char8) (c : Char8) : Nat := set.idxOf c

/-! The AI length rules (R262 to R265). -/

/-- A length rule: AI values `lo..hi` need a data length in `minLen..maxLen`. -/
structure LengthRule where
  lo : Nat
  hi : Nat
  minLen : Nat
  maxLen : Nat
deriving DecidableEq, Repr

/-- Exact lengths (R262): the length, and the AI values that need it. -/
def exactLengths : List (Nat × List Nat) :=
  [(2, [20]),
   (3, [422, 424, 426]),
   (4, [8111]),
   (6, [11, 12, 13, 15, 16, 17, 7006, 8005]),
   (10, [7003]),
   (13, [410, 411, 412, 413, 414, 415, 416, 7001]),
   (14, [1, 2, 8001]),
   (17, [402, 8017, 8018]),
   (18, [0, 8006])]

/-- Maximum lengths (R263): the bound, and the AI values it binds. -/
def maxLengths : List (Nat × List Nat) :=
  [(2, [7010]),
   (3, [427, 7008]),
   (4, [7004]),
   (6, [242]),
   (8, [30, 37]),
   (10, [7009, 8019]),
   (12, [7005, 8011]),
   (20, [10, 21, 22, 243, 254, 420, 7020, 7021, 7022, 710, 711, 712, 713, 714, 8002, 8012]),
   (25, [8020]),
   (30, [240, 241, 250, 251, 400, 401, 403, 7002, 7023, 8004, 8010, 8013, 90]),
   (34, [8007]),
   (70, [8110, 8112, 8200])]

/-- Ranged rules (R264), and the rules of AI 253 and AI 254 (R265). -/
def rangedLengths : List LengthRule :=
  [⟨3100, 3169, 6, 6⟩, ⟨3200, 3379, 6, 6⟩, ⟨3400, 3579, 6, 6⟩, ⟨3600, 3699, 6, 6⟩,
   ⟨3900, 3919, 1, 15⟩, ⟨3920, 3929, 1, 15⟩,
   ⟨3930, 3939, 4, 18⟩,
   ⟨3940, 3949, 4, 4⟩,
   ⟨421, 421, 4, 12⟩,
   ⟨423, 423, 4, 15⟩, ⟨425, 425, 4, 15⟩,
   ⟨7007, 7007, 6, 12⟩,
   ⟨7030, 7039, 4, 30⟩,
   ⟨8003, 8003, 15, 30⟩,
   ⟨8008, 8008, 9, 12⟩,
   ⟨91, 99, 1, 90⟩,
   ⟨253, 253, 1, 31⟩, ⟨254, 254, 14, 25⟩]

/-- Every length rule of R262 to R265. -/
def lengthRules : List LengthRule :=
  (exactLengths.flatMap fun (n, vs) => vs.map fun v => ⟨v, v, n, n⟩) ++
  (maxLengths.flatMap fun (n, vs) => vs.map fun v => ⟨v, v, 1, n⟩) ++
  rangedLengths

/-- The no-separator set (R268), as numbers formed by the first two digits of an AI token. -/
def noSepSet : List Nat :=
  [0, 1, 2, 3, 4, 11, 12, 13, 14, 15, 16, 17, 18, 19, 20, 23, 31, 32, 33, 34, 35, 36, 41]

/-! The compactor's character classes (R292) and codes (R302 to R306). A code is appended most significant bit first
(R290). -/

/-- `sep(c)` (R292). -/
def isSep (c : Char8) : Bool := c == Config.sep

/-- `upper(c)` (R292). -/
def isUpper (c : Char8) : Bool := 0x41 ≤ c.toNat && c.toNat ≤ 0x5A

/-- `lower(c)` (R292). -/
def isLower (c : Char8) : Bool := 0x61 ≤ c.toNat && c.toNat ≤ 0x7A

/-- `alnp(c)` (R292). -/
def DcCodes.isAlnPunct (d : DcCodes) (c : Char8) : Bool := (d.alnPunct.lookup c).isSome

/-- `alnc(c)`: what ALPHANUMERIC can encode, the separator aside (R292). -/
def DcCodes.isAlnChar (d : DcCodes) (c : Char8) : Bool := isDigit c || isUpper c || d.isAlnPunct c

/-- `isop(c)`: the ISO punctuation (R292, R304). -/
def DcCodes.isIsoPunct (d : DcCodes) (c : Char8) : Bool := (d.isoPunct.lookup c).isSome

/-- The bits of a code, the most significant first. -/
def codeBits {w : Nat} (v : BitVec w) : List Bool := msbBits v.toNat w

/-- The entry of an alphabet's table for the character `c`, the table beginning at the character code `first`. -/
def alphabetCode {w n : Nat} (table : Vector (BitVec w) n) (first : Nat) (c : Char8) : List Bool :=
  codeBits (table[c.toNat - first]?.getD 0)

/-- `append_bits(TO_NUM, TO_NUM_W)`: the latch into NUMERIC (R295, R296). -/
def DcCodes.toNumBits (d : DcCodes) : List Bool := msbBits d.toNum d.toNumW

/-- `DIGIT5(c)` (R303). -/
def DcCodes.digitBits (d : DcCodes) (c : Char8) : List Bool := alphabetCode d.digit5 0x30 c

/-- `ALN6(c)` (R303). -/
def DcCodes.alnBits (d : DcCodes) (c : Char8) : List Bool :=
  match d.alnPunct.lookup c with
  | some v => codeBits v
  | none => alphabetCode d.aln6 0x41 c

/-- `ISO7(c)` (R304). -/
def DcCodes.isoLetterBits (d : DcCodes) (c : Char8) : List Bool :=
  if isUpper c then alphabetCode d.isoUpper 0x41 c else alphabetCode d.isoLower 0x61 c

/-- `ISO8(c)` (R304). -/
def DcCodes.isoPunctBits (d : DcCodes) (c : Char8) : List Bool := codeBits ((d.isoPunct.lookup c).getD 0)

/-- The ALPHA-only letters, in 5 bits (R297, R305). -/
def DcCodes.alpLetterBits (d : DcCodes) (c : Char8) : List Bool := alphabetCode d.alpUpper 0x41 c

/-- ALPHA-only digits, `c + 4` in 6 bits (R297, R305): "offset +4" is the source's. -/
def alpDigit (c : Char8) : List Bool := msbBits (c.toNat + 4) 6

/-- `nv(c)`: the pair value of a digit, 10 for the separator (R294). -/
def pairValue (c : Char8) : Nat := if isSep c then 10 else dval c

/-- The 7-bit code of a NUMERIC pair (R294): the formula is the source's. -/
def pairCode (d1 d2 : Nat) : List Bool := msbBits (11 * d1 + d2 + 8) 7

/-- The pad code `00100` (R325): the value is the source's. -/
def padCode : List Bool := msbBits 0x04 5

/-- The composite capacity tables (R322), by mode and width class; no table for the reserved class 3. -/
def capacityTable (cm : CompositeMode) (wc : BitVec 2) : List Nat :=
  match cm, wc.toNat with
  | .a, 0 => [167, 138, 118, 108, 88, 78, 59]
  | .a, 1 => [167, 138, 118, 98, 78]
  | .a, 2 => [197, 167, 138, 108, 78]
  | .b, 0 => [336, 296, 256, 208, 160, 104, 56]
  | .b, 1 => [768, 648, 536, 416, 304, 208, 152, 112, 72, 32]
  | .b, 2 => [1184, 1016, 840, 672, 496, 352, 264, 208, 152, 96, 56]
  | _, _ => []

/-! Symbol rows. -/

/-- `FOURSTATE_MAP` (R346): presence of a bar in rows 0, 1, 2 for the characters '0' to '3'; no other character has
one. -/
def fourState (map : Vector (Bool × Bool × Bool) 4) (c : Char8) : Option (Bool × Bool × Bool) :=
  if 0x30 ≤ c.toNat then map[c.toNat - 0x30]? else none

end Sys2Proof.Machine
end

