-- ==== Sys2Proof/Machine/AiParser.lean ====
section
/-! DEFINITION. Unit AI, the Application-Identifier parser with its HIBC and tilde-escape modes (45_aiparser.md). -/

namespace Sys2Proof.Machine

/-! GS1 mode. -/

/-- `[`. -/
def openBracket : Char8 := 0x5B

/-- `]`. -/
def closeBracket : Char8 := 0x5D

/-- The character set of GS1 mode: 32 to 126 (R251). -/
def inGs1Set (c : Char8) : Bool := 32 ≤ c.toNat && c.toNat ≤ 126

/-- An AI token: 2 to 4 characters, all digits (R253). -/
def tokenOk (tok : List Char8) : Bool := decide (2 ≤ tok.length) && decide (tok.length ≤ 4) && tok.all isDigit

/-- Pass 1 (R253), left to right: `tok` is `none` at depth 0 and the token so far at depth 1; the result is the number
of tokens. -/
def scanStructure : List Char8 → Option (List Char8) → Nat → Except ErrorKind Nat
  | [], none, ntok => .ok ntok
  | [], some _, _ => .error .invalidFormat
  | c :: cs, tok, ntok =>
    if c = openBracket then
      match tok with
      | none => scanStructure cs (some []) ntok
      | some _ => .error .invalidFormat
    else if c = closeBracket then
      match tok with
      | none => .error .invalidFormat
      | some t => if tokenOk t then scanStructure cs none (ntok + 1) else .error .invalidFormat
    else scanStructure cs (tok.map (· ++ [c])) ntok

/-- An AI with its data field (R254). -/
structure AiField where
  tok : List Char8
  data : List Char8
deriving DecidableEq, Repr

/-- Pass 2 (R254): the tokens and their data fields, each field ending at the next `[` or at the end. `inTok` says
whether the scan is between `[` and `]`; `cur` is the field so far. -/
def extractFields : List Char8 → Bool → Option AiField → List AiField
  | [], _, cur => cur.toList
  | c :: cs, inTok, cur =>
    if c = openBracket then cur.toList ++ extractFields cs true (some { tok := [], data := [] })
    else if c = closeBracket then extractFields cs false cur
    else if inTok then extractFields cs true (cur.map fun f => { f with tok := f.tok ++ [c] })
    else extractFields cs false (cur.map fun f => { f with data := f.data ++ [c] })

/-- The fields of a message (R254). -/
def fieldsOf (msg : List Char8) : List AiField := extractFields msg false none

/-- A length rule names an AI value (R262 to R265). -/
def LengthRule.names (r : LengthRule) (v : Nat) : Bool := decide (r.lo ≤ v) && decide (v ≤ r.hi)

/-- A length rule admits a data length. -/
def LengthRule.admits (r : LengthRule) (n : Nat) : Bool := decide (r.minLen ≤ n) && decide (n ≤ r.maxLen)

/-- Pass 3 for one AI (R256): every rule that names the value holds; a value no rule names is accepted unless
`AI_UNKNOWN_REJECT` (R266). -/
def lengthOk (rejectUnknown : Bool) (v n : Nat) : Bool :=
  (lengthRules.all fun r => !r.names v || r.admits n) && (!rejectUnknown || lengthRules.any fun r => r.names v)

/-- `nosep(tok)`: the number of the first two digits is in the no-separator set (R268). -/
def noSep (tok : List Char8) : Bool := noSepSet.contains (decimal (tok.take 2))

/-- The output of the rewrite so far. -/
structure Rewrite where
  out : List Char8
  recs : List AiRecord
  /-- A marker is due before the next AI: there is a previous AI and it is not in the no-separator set. -/
  due : Bool
deriving DecidableEq, Repr

/-- Pass 4 for one AI (R267): the marker where the `[` stood, the token as written, the data, and the record. -/
def rewriteField (t : Rewrite) (f : AiField) : Rewrite :=
  let pre := if t.due then t.out ++ [Config.sep] else t.out
  { out := pre ++ f.tok ++ f.data
    recs := t.recs ++
      [{ value := BitVec.ofNat 14 (decimal f.tok)
         aiLoc := BitVec.ofNat 16 pre.length
         dataLoc := BitVec.ofNat 16 (pre.length + f.tok.length)
         dataLen := BitVec.ofNat 16 f.data.length }]
    due := !noSep f.tok }

/-- Pass 4 (R267). -/
def rewriteAll (fields : List AiField) : Rewrite :=
  fields.foldl rewriteField { out := [], recs := [], due := false }

/-- `AI.GS1` on a message: the tests in the order of R271, then the rewrite. -/
def parseGs1 (p : Params) (msg : List Char8) : Except ErrorKind Rewrite :=
  if !msg.all inGs1Set then .error .invalidCharacter
  else if msg.head? ≠ some openBracket then .error .invalidFormat
  else match scanStructure msg none 0 with
    | .error k => .error k
    | .ok ntok =>
      if p.aiMax < ntok then .error .lengthExceeded
      else if (fieldsOf msg).any fun f => f.data.isEmpty then .error .invalidFormat
      else if (fieldsOf msg).all fun f => lengthOk p.aiUnknownReject (decimal f.tok) f.data.length then
        .ok (rewriteAll (fieldsOf msg))
      else .error .invalidFormat

/-- `AI.GS1 Csrc, Cdst` (R270): the normalized message and the records replace the old ones. -/
def execAiGs1 (src dst : Ix) (s : State) : Host.Outcome State Fault Refusal :=
  finish s (.aiGs1 src dst)
    (match parseGs1 s.cfg (s.getC src) with
     | .ok t => .ok ((s.setC dst t.out).setAir t.recs)
     | .error k => .error k)

/-! HIBC mode. -/

/-- The HIBC flag character `+` (R272). -/
def hibcFlag : Char8 := 0x2B

/-- The flag, prepended if absent (R272). -/
def withFlag (msg : List Char8) : List Char8 := if msg.head? = some hibcFlag then msg else hibcFlag :: msg

/-- `AI.HIBC Csrc, Cdst` (R272): the character test, then the length before the flag. -/
def execAiHibc (src dst : Ix) (s : State) : Host.Outcome State Fault Refusal :=
  finish s (.aiHibc src dst)
    (if !(s.getC src).all (inC39 s.cfg.c39set) then .error .invalidCharacter
     else if Config.hibcMax < (s.getC src).length then .error .lengthExceeded
     else .ok (s.setC dst (withFlag (s.getC src))))

/-! Tilde-escape mode. -/

/-- `~`. -/
def tilde : Char8 := 0x7E

/-- What follows a `~`, if it is an escape (R273): the code it stands for and how many characters it takes. -/
def escapeOf : List Char8 → Option (Char8 × Nat)
  | [] => none
  | a :: rest =>
    if 0x40 ≤ a.toNat ∧ a.toNat ≤ 0x5F then some (a - 0x40, 1)
    else match rest with
      | b :: d :: _ =>
        if isDigit a && isDigit b && isDigit d && decide (decimal [a, b, d] ≤ 255) then
          some (BitVec.ofNat 8 (decimal [a, b, d]), 3)
        else none
      | _ => none

/-- The unescaped message (R273); `skip` characters of an escape already taken are passed over. -/
def unescape : List Char8 → Nat → List Char8
  | [], _ => []
  | _ :: cs, skip + 1 => unescape cs skip
  | c :: cs, 0 =>
    if c = tilde then
      match escapeOf cs with
      | some (v, n) => v :: unescape cs n
      | none => c :: unescape cs 0
    else c :: unescape cs 0

/-- `AI.TILDE Csrc, Cdst` (R273): every byte string is accepted. -/
def execAiTilde (src dst : Ix) (s : State) : Host.Outcome State Fault Refusal :=
  finish s (.aiTilde src dst) (.ok (s.setC dst (unescape (s.getC src) 0)))

/-! Reading the records. -/

/-- `AICNT` (R31): the number of records. -/
def State.aicnt (s : State) : BitVec 16 := BitVec.ofNat 16 s.air.length

/-- `AI.CNT Xa` (R274). -/
def execAiCnt (ra : RegNum) (s : State) : Host.Outcome State Fault Refusal :=
  finish s (.aiCnt ra) (.ok (s.setX ra (s.aicnt.setWidth 32)))

/-- A field of a record, zero-extended (R275). -/
def AiRecord.get (r : AiRecord) : RecField → Word
  | .value => r.value.setWidth 32
  | .aiLoc => r.aiLoc.setWidth 32
  | .dataLoc => r.dataLoc.setWidth 32
  | .dataLen => r.dataLen.setWidth 32

/-- `AI.GETR Xa, Xb, f` (R275). -/
def execAiGetr (ra rb : RegNum) (f : RecField) (s : State) : Host.Outcome State Fault Refusal :=
  finish s (.aiGetr ra rb f)
    (match s.air[s.num rb]? with
     | some r => .ok (s.setX ra (r.get f))
     | none => .error .outOfRange)

end Sys2Proof.Machine
end

