-- ==== Sys2Proof/Machine/BitStream.lean ====
section
/-! DEFINITION. Unit BS, the bit-stream buffer (41_bitstream.md). -/

namespace Sys2Proof.Machine

/-- Store the enlarged bits of `B[b]`, or fail with `LengthExceeded` (R131). -/
def growTo (s : State) (b : Ix) (bits : List Bool) : Except ErrorKind State :=
  match (s.getB b).grown s.cfg.bsMaxBits bits with
  | .ok v => .ok (s.setB b v)
  | .error k => .error k

/-- `BS.CLR Bb` (R133): the creation of a bit stream. -/
def execBsClr (b : Ix) (s : State) : Host.Outcome State Fault Refusal :=
  finish s (.bsClr b) (.ok (s.setB b (BitStream.fresh s.cfg.bsCap0)))

/-- `BS.APB Xa, Bb` (R134): `append_bit`. -/
def execBsApb (ra : RegNum) (b : Ix) (s : State) : Host.Outcome State Fault Refusal :=
  finish s (.bsApb ra b) (growTo s b ((s.getB b).bits ++ [s.bitOf ra]))

/-- `BS.APBS Xa, n, Bb` (R135): `append_bits`, most significant bit first; a count above 32 is `OutOfRange`. -/
def execBsApbs (ra : RegNum) (n6 : BitVec 6) (b : Ix) (s : State) : Host.Outcome State Fault Refusal :=
  finish s (.bsApbs ra n6 b)
    (if Config.bsAppendMax < n6.toNat then .error .outOfRange
     else growTo s b ((s.getB b).bits ++ msbBits (s.num ra) n6.toNat))

/-- `bits[0..i) ++ [v] ++ bits[i..size)` (R136). -/
def insertBit (bits : List Bool) (i : Nat) (v : Bool) : List Bool := bits.take i ++ v :: bits.drop i

/-- `BS.INS Xa, Xb, Bb` (R136): `insert_bit`; the append position is out of range (D15). -/
def execBsIns (ra rb : RegNum) (b : Ix) (s : State) : Host.Outcome State Fault Refusal :=
  finish s (.bsIns ra rb b)
    (if (s.getB b).bits.length ≤ s.num ra then .error .outOfRange
     else growTo s b (insertBit (s.getB b).bits (s.num ra) (s.bitOf rb)))

/-- `bits[0..i) ++ bits[i+c..size)` (R137). -/
def removeBits (bits : List Bool) (i c : Nat) : List Bool := bits.take i ++ bits.drop (i + c)

/-- `BS.REM Xa, Xb, Bb` (R137): `remove_bits`; the sum `i + c` is of integers. -/
def execBsRem (ra rb : RegNum) (b : Ix) (s : State) : Host.Outcome State Fault Refusal :=
  finish s (.bsRem ra rb b)
    (if (s.getB b).bits.length ≤ s.num ra then .error .outOfRange
     else if (s.getB b).bits.length < s.num ra + s.num rb then .error .outOfRange
     else .ok (s.setB b ((s.getB b).withBits (removeBits (s.getB b).bits (s.num ra) (s.num rb)))))

/-- `BS.XOR Bb, Bb2` (R138): the result goes to `B[b]` (D16). -/
def execBsXor (b b2 : Ix) (s : State) : Host.Outcome State Fault Refusal :=
  finish s (.bsXor b b2)
    (if (s.getB b).bits.length ≠ (s.getB b2).bits.length then .error .sizeMismatch
     else .ok (s.setB b ((s.getB b).withBits (List.zipWith Bool.xor (s.getB b).bits (s.getB b2).bits))))

/-- `BS.GET Xa, Xb, Bb` (R139). -/
def execBsGet (ra rb : RegNum) (b : Ix) (s : State) : Host.Outcome State Fault Refusal :=
  finish s (.bsGet ra rb b)
    (match (s.getB b).bits[s.num rb]? with
     | some v => .ok (s.setX ra (bitWord v))
     | none => .error .outOfRange)

/-- `BS.SET Xa, Xb, Bb` (R140). -/
def execBsSet (ra rb : RegNum) (b : Ix) (s : State) : Host.Outcome State Fault Refusal :=
  finish s (.bsSet ra rb b)
    (if (s.getB b).bits.length ≤ s.num ra then .error .outOfRange
     else .ok (s.setB b ((s.getB b).withBits ((s.getB b).bits.set (s.num ra) (s.bitOf rb)))))

/-- Byte `j` of `to_bytes()`: bit `7 - t` is the bit at index `8 * j + t`, zero beyond the end (R150). -/
def packByte (bits : List Bool) (j : Nat) : Char8 :=
  let bitAt := fun t => BitVec.ofBool (bits.getD (8 * j + t) false)
  bitAt 0 ++ bitAt 1 ++ bitAt 2 ++ bitAt 3 ++ bitAt 4 ++ bitAt 5 ++ bitAt 6 ++ bitAt 7

/-- `ceil(size / 8)` (R142). -/
def sizeInBytes (n : Nat) : Nat := (n + 7) / 8

/-- `to_bytes()` (R150). -/
def toBytes (bits : List Bool) : List Char8 := (List.range (sizeInBytes bits.length)).map (packByte bits)

/-- `BS.TOB Bb, Ck` (R150): `C[k]` is replaced. -/
def execBsTob (b k : Ix) (s : State) : Host.Outcome State Fault Refusal :=
  finish s (.bsTob b k)
    (if s.cfg.cMax < sizeInBytes (s.getB b).bits.length then .error .lengthExceeded
     else .ok (s.setC k (toBytes (s.getB b).bits)))

/-- `BS.SIZE Xa, Bb` (R141). -/
def execBsSize (ra : RegNum) (b : Ix) (s : State) : Host.Outcome State Fault Refusal :=
  finish s (.bsSize ra b) (.ok (s.setX ra (natWord (s.getB b).bits.length)))

/-- `BS.SIZEB Xa, Bb` (R142). -/
def execBsSizeb (ra : RegNum) (b : Ix) (s : State) : Host.Outcome State Fault Refusal :=
  finish s (.bsSizeb ra b) (.ok (s.setX ra (natWord (sizeInBytes (s.getB b).bits.length))))

end Sys2Proof.Machine
end

