-- ==== Sys2Proof/Machine/Checksum.lean ====
section
/-! DEFINITION. Unit CK, the weighted checksum calculators (42_checksum.md). -/

namespace Sys2Proof.Machine

/-- A sum over a string of a term for each character and its position from the left. -/
def weightedSum (term : Char8 → Nat → Nat) (cs : List Char8) : Nat :=
  (cs.zipIdx.map fun (c, j) => term c j).sum

/-- `(10 - (sum mod 10)) mod 10` (R162, R166). -/
def complement10 (sum : Nat) : Nat := (10 - sum % 10) % 10

/-- The Mod10 sum: weights 3, 1, 3, … from the right (R162). -/
def mod10Sum (cs : List Char8) : Nat :=
  weightedSum (fun c j => dval c * (if j % 2 = 0 then 3 else 1)) cs.reverse

/-- The Mod11 sum: weights 1, 2, 3, … from the left (R163). -/
def mod11Sum (cs : List Char8) : Nat := weightedSum (fun c j => dval c * (j + 1)) cs

/-- The Mod43 sum: the index of each character in `C39SET` (R164). -/
def mod43Sum (set : List Char8) (cs : List Char8) : Nat := weightedSum (fun c _ => idx43 set c) cs

/-- The two decimal digits of a product above 9, summed (R166). -/
def foldProduct (p : Nat) : Nat := if 9 < p then p / 10 + p % 10 else p

/-- The one-pass check sum: weights 2, 1, 2, … from the left, each product folded (R166). -/
def opccSum (cs : List Char8) : Nat :=
  weightedSum (fun c j => foldProduct (dval c * (if j % 2 = 0 then 2 else 1))) cs

/-- The input check of R161, then the result character in `X[ra]`; nothing else changes (R160). -/
def checksum (s : State) (ra : RegNum) (k : Ix) (legal : Char8 → Bool) (result : List Char8 → Word) :
    Except ErrorKind State :=
  if (s.getC k).all legal then .ok (s.setX ra (result (s.getC k))) else .error .invalidCharacter

/-- The character of Mod11: 'X' for 10, else the digit (R163). -/
def mod11Char (r : Nat) : Word := if r = 10 then 0x58 else digitWord r

/-- The character of Mod43, mapped back through the same set (R164). -/
def mod43Char (set : List Char8) (sum : Nat) : Word := (set.getD (sum % 43) 0).setWidth 32

/-- `CK.MOD10 Xa, Ck` (R162). -/
def execCkMod10 (ra : RegNum) (k : Ix) (s : State) : Host.Outcome State Fault Refusal :=
  finish s (.ckMod10 ra k) (checksum s ra k isDigit fun cs => digitWord (complement10 (mod10Sum cs)))

/-- `CK.MOD11 Xa, Ck` (R163). -/
def execCkMod11 (ra : RegNum) (k : Ix) (s : State) : Host.Outcome State Fault Refusal :=
  finish s (.ckMod11 ra k) (checksum s ra k isDigit fun cs => mod11Char (mod11Sum cs % 11))

/-- `CK.MOD43 Xa, Ck` (R164). -/
def execCkMod43 (ra : RegNum) (k : Ix) (s : State) : Host.Outcome State Fault Refusal :=
  finish s (.ckMod43 ra k) 
    (checksum s ra k (inC39 s.cfg.c39set) fun cs => mod43Char s.cfg.c39set (mod43Sum s.cfg.c39set cs))

/-- `CK.OPCC Xa, Ck` (R166). -/
def execCkOpcc (ra : RegNum) (k : Ix) (s : State) : Host.Outcome State Fault Refusal :=
  finish s (.ckOpcc ra k) (checksum s ra k isDigit fun cs => digitWord (complement10 (opccSum cs)))

end Sys2Proof.Machine
end

