-- ==== Sys2Proof/Machine/Compaction.lean ====
section
/-! DEFINITION. Unit DC, the multi-mode data compactor and composite sizing (46_compaction.md). -/

namespace Sys2Proof.Machine

/-! The state machine (R294 to R297), on the characters from position `p` to the end. -/

/-- `drun(p)`: how many digits stand in a row from here (R292). -/
def digitRun (cs : List Char8) : Nat := (cs.takeWhile isDigit).length

/-- `arun(p)`: how many ALPHANUMERIC characters stand in a row from here (R292). -/
def alnRun (d : DcCodes) (cs : List Char8) : Nat := (cs.takeWhile d.isAlnChar).length

/-- The look-ahead that latches to NUMERIC: at least 6 digits, or at least 4 that reach the end (R295, R296). -/
def numericAhead (cs : List Char8) : Bool :=
  decide (6 ≤ digitRun cs) || (decide (4 ≤ digitRun cs) && decide (digitRun cs = cs.length))

/-- What one step of the machine does: the bits it appends, how many characters it takes, and the mode after it. -/
structure Emit where
  bits : List Bool
  taken : Nat
  mode : DcMode
deriving DecidableEq, Repr

/-- NUMERIC mode (R294). -/
def numStep (d : DcCodes) (c : Char8) (rest : List Char8) : Emit :=
  match rest with
  | b :: _ =>
    if (isDigit c || isSep c) && (isDigit b || isSep b) && !(isSep c && isSep b) then
      { bits := pairCode (pairValue c) (pairValue b), taken := 2, mode := .num }
    else { bits := codeBits d.numToAln, taken := 0, mode := .aln }
  | [] =>
    if isDigit c then { bits := pairCode (pairValue c) 10, taken := 1, mode := .num }
    else { bits := codeBits d.numToAln, taken := 0, mode := .aln }

/-- ALPHANUMERIC mode (R295). -/
def alnStep (d : DcCodes) (c : Char8) (rest : List Char8) : Emit :=
  if numericAhead (c :: rest) then { bits := d.toNumBits, taken := 0, mode := .num }
  else if isDigit c then { bits := d.digitBits c, taken := 1, mode := .aln }
  else if isSep c then { bits := codeBits d.sep5, taken := 1, mode := .num }
  else if isUpper c || d.isAlnPunct c then { bits := d.alnBits c, taken := 1, mode := .aln }
  else { bits := codeBits d.alnIso, taken := 0, mode := .iso }

/-- ISO mode (R296): a character no mode encodes is `InvalidCharacter`. -/
def isoStep (d : DcCodes) (run : Nat) (c : Char8) (rest : List Char8) : Except ErrorKind Emit :=
  if numericAhead (c :: rest) then .ok { bits := d.toNumBits, taken := 0, mode := .num }
  else if run ≤ alnRun d (c :: rest) then .ok { bits := codeBits d.alnIso, taken := 0, mode := .aln }
  else if isDigit c then .ok { bits := d.digitBits c, taken := 1, mode := .iso }
  else if isSep c then .ok { bits := codeBits d.sep5, taken := 1, mode := .num }
  else if isUpper c || isLower c then .ok { bits := d.isoLetterBits c, taken := 1, mode := .iso }
  else if d.isIsoPunct c then .ok { bits := d.isoPunctBits c, taken := 1, mode := .iso }
  else .error .invalidCharacter

/-- ALPHA-only mode (R297). -/
def alpStep (d : DcCodes) (c : Char8) : Except ErrorKind Emit :=
  if isUpper c then .ok { bits := d.alpLetterBits c, taken := 1, mode := .alp }
  else if isDigit c then .ok { bits := alpDigit c, taken := 1, mode := .alp }
  else if isSep c then .ok { bits := codeBits d.alpEnd, taken := 1, mode := .num }
  else .error .invalidCharacter

/-- One step according to the mode (R299). -/
def compactStep (p : Params) (mode : DcMode) (c : Char8) (rest : List Char8) : Except ErrorKind Emit :=
  match mode with
  | .num => .ok (numStep p.dcCodes c rest)
  | .aln => .ok (alnStep p.dcCodes c rest)
  | .iso => isoStep p.dcCodes p.dcIso2AlnRun c rest
  | .alp => alpStep p.dcCodes c

/-- What a run of the machine leaves: the bits in order, the mode, and the characters not reached. -/
structure Compacted where
  bits : List Bool
  mode : DcMode
  left : List Char8
deriving DecidableEq, Repr

/-- The machine, at most `turns` steps of it, after the bits `acc`. R298: `3 * (n - p0) + 3` turns always reach the
end (log 19). -/
def compactRun (p : Params) : Nat → DcMode → List Char8 → List Bool → Except ErrorKind Compacted
  | _, mode, [], acc => .ok { bits := acc, mode := mode, left := [] }
  | 0, mode, cs, acc => .ok { bits := acc, mode := mode, left := cs }
  | turns + 1, mode, c :: rest, acc =>
    match compactStep p mode c rest with
    | .ok e => compactRun p turns e.mode ((c :: rest).drop e.taken) (acc ++ e.bits)
    | .error k => .error k

/-- The whole machine on the characters from `p0` on (R298, R299). -/
def compact (p : Params) (mode : DcMode) (cs : List Char8) : Except ErrorKind Compacted :=
  compactRun p (3 * cs.length + 3) mode cs []

/-- The stream after an encode, if it is not too long: `BS_MAX_BITS` for every stream (R131), then `DBE_MAX_BITS` for
DataBar Expanded (R300). -/
def dcAppend (s : State) (dst : Ix) (sym : Symbology) (t : Compacted) : Except ErrorKind State :=
  match (s.getB dst).grown s.cfg.bsMaxBits ((s.getB dst).bits ++ t.bits) with
  | .ok v =>
    if sym = .dbe ∧ Config.dbeMaxBits < v.bits.length then .error .lengthExceeded
    else .ok ((s.setB dst v).setMode t.mode)
  | .error k => .error k

/-- `DC.ENC Xa, Csrc, Bdst, md, sym` (R299); the incoming `DCMODE` is ignored. -/
def execDcEnc (ra : RegNum) (src dst : Ix) (md : DcMode) (sym : Symbology) (s : State) :
    Host.Outcome State Fault Refusal :=
  finish s (.dcEnc ra src dst md sym)
    (if (s.getC src).length < s.num ra then .error .outOfRange
     else match compact s.cfg md ((s.getC src).drop (s.num ra)) with
       | .ok t => dcAppend s dst sym t
       | .error k => .error k)

/-! Composite sizing and padding. -/

/-- The smallest table entry that is at least `n` (R320, R321). -/
def smallestFit (table : List Nat) (n : Nat) : Option Nat := (table.filter fun e => decide (n ≤ e)).min?

/-- `DC.TGT Xa, Bb, Wc, cm` (R321); the reserved width class is an illegal command (R95 (c), log 5). -/
def execDcTgt (ra : RegNum) (b : Ix) (wc : BitVec 2) (cm : CompositeMode) (s : State) :
    Host.Outcome State Fault Refusal :=
  finish s (.dcTgt ra b wc cm)
    (if !wcOk wc then .error .illegalCommand
     else match smallestFit (capacityTable cm wc) (s.getB b).bits.length with
       | some e => .ok (s.setX ra (natWord e))
       | none => .error .unsupportedConfiguration)

/-- The mode C error-correction level of a codeword count (R324). -/
def eccLevel (w : Nat) : Nat :=
  if w ≤ 40 then 2 else if w ≤ 160 then 3 else if w ≤ 320 then 4 else if w ≤ 640 then 5
  else if w ≤ 1280 then 6 else 7

/-- `DC.ECCL Xa, Xb` (R324). -/
def execDcEccl (ra rb : RegNum) (s : State) : Host.Outcome State Fault Refusal :=
  finish s (.dcEccl ra rb) (.ok (s.setX ra (natWord (eccLevel (s.num rb)))))

/-- How many 5-bit pad codes bring a length to at least the target (R325). -/
def padCount (len target : Nat) : Nat := (target - len + 4) / 5

/-- The padded bits (R325): the latch out of NUMERIC, the pad codes, then the excess removed. -/
def padBits (d : DcCodes) (mode : DcMode) (bits : List Bool) (target : Nat) : List Bool :=
  let latched := if mode = .num then bits ++ codeBits d.numToAln else bits
  (latched ++ (List.replicate (padCount latched.length target) padCode).flatten).take target

/-- `DC.PAD Xa, Bb` (R325): the capacity grows for the final size only. -/
def execDcPad (ra : RegNum) (b : Ix) (s : State) : Host.Outcome State Fault Refusal :=
  finish s (.dcPad ra b)
    (if s.cfg.bsMaxBits < s.num ra ∨ s.num ra < (s.getB b).bits.length then .error .lengthExceeded
     else if (s.getB b).bits.length = s.num ra then .ok s
     else .ok ((s.setB b ((s.getB b).withBits (padBits s.cfg.dcCodes s.dcmode (s.getB b).bits (s.num ra)))).setMode
       (if s.dcmode = .num then .aln else s.dcmode)))

/-- `DC.GETM Xa` (R326). -/
def execDcGetm (ra : RegNum) (s : State) : Host.Outcome State Fault Refusal :=
  finish s (.dcGetm ra) (.ok (s.setX ra (s.dcmode.code.setWidth 32)))

/-- `DC.SETM m2` (R327). -/
def execDcSetm (m2 : DcMode) (s : State) : Host.Outcome State Fault Refusal :=
  finish s (.dcSetm m2) (.ok (s.setMode m2))

end Sys2Proof.Machine
end

