-- ==== Sys2Proof/Machine/LargeNum.lean ====
section
/-! DEFINITION. Unit LN, the fixed-width large-number arithmetic (43_largenum.md), on values modulo `2^112`: R181 says
the value statement is the one to model. The cell-level algorithms of R184, R190, R191 and R192 stand in
LargeNumCells.lean, and obligations say that they agree. -/

namespace Sys2Proof.Machine

/-- `LN.CLR La` (R185). -/
def execLnClr (la : Ix) (s : State) : Host.Outcome State Fault Refusal :=
  finish s (.lnClr la) (.ok (s.setL la 0))

/-- `LN.ADD La, Lb` (R186): the sum modulo `2^112`, no carry kept. -/
def execLnAdd (la lb : Ix) (s : State) : Host.Outcome State Fault Refusal :=
  finish s (.lnAdd la lb) (.ok (s.setL la (s.getL la + s.getL lb)))

/-- `LN.SUB La, Lb` (R187): the difference modulo `2^112`; `L[lb]` is not changed. -/
def execLnSub (la lb : Ix) (s : State) : Host.Outcome State Fault Refusal :=
  finish s (.lnSub la lb) (.ok (s.setL la (s.getL la - s.getL lb)))

/-- The value a decimal string loads, starting from `old`: for each character `r <- 10 * r + digit`, modulo `2^112`
(R191). -/
def loadDecimal (old : Large) (cs : List Char8) : Large :=
  cs.foldl (fun r c => 10 * r + BitVec.ofNat 112 (dval c)) old

/-- Only the cells below `LN_MUL_ITER` of the multiplier are examined (R192). -/
def multiplierWindow (t : Large) : Large := BitVec.ofNat 112 (t.toNat % 2 ^ Config.lnMulIter)

/-- `LN.MUL La, Ck` (R192): `val * (val(t) mod 2^102)` modulo `2^112`, `t` loaded from zero. -/
def execLnMul (la k : Ix) (s : State) : Host.Outcome State Fault Refusal :=
  finish s (.lnMul la k)
    (if (s.getC k).all isDigit then
       .ok (s.setL la (s.getL la * multiplierWindow (loadDecimal 0 (s.getC k))))
     else .error .invalidInput)

/-- `LN.SHU La` (R188): cell 111 is lost, a zero enters at cell 0. -/
def execLnShu (la : Ix) (s : State) : Host.Outcome State Fault Refusal :=
  finish s (.lnShu la) (.ok (s.setL la (s.getL la <<< 1)))

/-- `LN.SHD La` (R189): cell 0 is lost, a zero enters at cell 111. -/
def execLnShd (la : Ix) (s : State) : Host.Outcome State Fault Refusal :=
  finish s (.lnShd la) (.ok (s.setL la (s.getL la >>> 1)))

/-- What the comparator reads of a register: cells `LN_CMP_TOP` to 0 (R190). -/
def compareWindow (v : Large) : Nat := v.toNat % 2 ^ (Config.lnCmpTop + 1)

/-- `LN.CMP Xa, La, Lb` (R190): 1 if `L[la]` is the larger, else 0. -/
def execLnCmp (ra : RegNum) (la lb : Ix) (s : State) : Host.Outcome State Fault Refusal :=
  finish s (.lnCmp ra la lb)
    (.ok (s.setX ra (bitWord (decide (compareWindow (s.getL lb) < compareWindow (s.getL la))))))

/-- `LN.LDEC La, Ck` (R191): from zero when `LN_LOAD_CLEARS`, else from the old value. -/
def execLnLdec (la k : Ix) (s : State) : Host.Outcome State Fault Refusal :=
  finish s (.lnLdec la k)
    (if (s.getC k).all isDigit then
       .ok (s.setL la (loadDecimal (if s.cfg.lnLoadClears then 0 else s.getL la) (s.getC k)))
     else .error .invalidInput)

/-- `LN.GETB Xa, Xb, La` (R193). -/
def execLnGetb (ra rb : RegNum) (la : Ix) (s : State) : Host.Outcome State Fault Refusal :=
  finish s (.lnGetb ra rb la)
    (if Config.lnCells ≤ s.num rb then .error .outOfRange
     else .ok (s.setX ra (bitWord ((s.getL la).getLsbD (s.num rb)))))

/-- A register with cell `i` at `v` and every other cell as it was (R194). -/
def setCell (n : Large) (i : Nat) (v : Bool) : Large :=
  if v then n ||| (1#112 <<< i) else n &&& ~~~(1#112 <<< i)

/-- `LN.SETB Xa, Xb, La` (R194). -/
def execLnSetb (ra rb : RegNum) (la : Ix) (s : State) : Host.Outcome State Fault Refusal :=
  finish s (.lnSetb ra rb la)
    (if Config.lnCells ≤ s.num rb then .error .outOfRange
     else .ok (s.setL la (setCell (s.getL la) (s.num rb) (s.bitOf ra))))

end Sys2Proof.Machine
end

