-- ==== Sys2Proof/Machine/ReedSolomon.lean ====
section
/-! DEFINITION. Unit RS, the Reed-Solomon encoder (44_reedsolomon.md). A computation that would read a table entry
never written answers `none`, and its command fails (R216, R228). -/

namespace Sys2Proof.Machine

/-! Construction of the tables. -/

/-- The working values of the table walk (R213). -/
structure Walk where
  /-- The power of the primitive element. -/
  p : Word
  log : List TableEntry
  alog : List TableEntry
deriving DecidableEq, Repr

/-- One turn of the walk (R213): store `p` and `v`, then multiply `p` by `x` and reduce by `poly`. -/
def walkStep (m : Nat) (poly : Word) (t : Walk) (v : Nat) : Walk :=
  let q := t.p <<< 1
  { p := if q.getLsbD m then q ^^^ poly else q
    log := t.log.set t.p.toNat (some (BitVec.ofNat 16 v))
    alog := t.alog.set v (some (t.p.setWidth 16)) }

/-- The walk's start: every `written` bit clear, `p = 1` (R213). -/
def walkStart (m : Nat) : Walk :=
  { p := 1, log := List.replicate (2 ^ m) none, alog := List.replicate (2 ^ m) none }

/-- The table walk (R213): `2^m - 1` turns. -/
def tableWalk (m : Nat) (poly : Word) : Walk := (List.range (2 ^ m - 1)).foldl (walkStep m poly) (walkStart m)

/-- The log and anti-log tables with `logmod` (R211, R214). -/
structure Tables where
  logmod : Nat
  log : List TableEntry
  alog : List TableEntry
deriving DecidableEq, Repr

/-- `rs.log[a]`, if written. -/
def Tables.logOf (t : Tables) (a : Sym) : Option Nat := (t.log[a.toNat]?.join).map BitVec.toNat

/-- `rs.alog[e mod logmod]`, if written. -/
def Tables.expOf (t : Tables) (e : Nat) : Option Sym := t.alog[e % t.logmod]?.join

/-- `rs.alog[(rs.log[a] + e) mod logmod]`: `a` times the `e`-th power of the primitive element (R215). -/
def Tables.scale (t : Tables) (a : Sym) (e : Nat) : Option Sym :=
  match t.logOf a with
  | some l => t.expOf (l + e)
  | none => none

/-- `gfmul(a, b)` (R214): 0 when a factor is 0; the sum of logarithms is formed before the `mod`. -/
def Tables.gfmul (t : Tables) (a b : Sym) : Option Sym :=
  if a = 0 ∨ b = 0 then some 0
  else match t.logOf b with
    | some l => t.scale a l
    | none => none

/-- An inner coefficient of the product: `g[k] * alpha^idx`, taken only when `g[k]` is not 0, plus `g[k-1]` (R215). -/
def genInner (t : Tables) (idx : Nat) (g lower : Sym) : Option Sym :=
  if g = 0 then some lower
  else match t.scale g idx with
    | some v => some (v ^^^ lower)
    | none => none

/-- All of a list of results, or `none` if one is missing. -/
def collect : List (Option Sym) → Option (List Sym)
  | [] => some []
  | none :: _ => none
  | some v :: rest =>
    match collect rest with
    | some vs => some (v :: vs)
    | none => none

/-- One turn of the generator's construction (R215): from the coefficients `g[0..i-1]` to `g[0..i]`, multiplying by
`x + alpha^idx`. -/
def genStep (t : Tables) (idx : Nat) : List Sym → Option (List Sym)
  | [] => none
  | g0 :: rest =>
    match t.scale g0 idx, collect (List.zipWith (genInner t idx) rest (g0 :: rest)) with
    | some h0, some hs => some (h0 :: hs ++ [1])
    | _, _ => none

/-- The generator after some turns, the root index advancing by one each turn (R215). -/
def generator (t : Tables) (index : Nat) : Nat → Option (List Sym)
  | 0 => some [1]
  | i + 1 =>
    match generator t index i with
    | some g => genStep t (index + i) g
    | none => none

/-- R212: `poly >= 2`, `m <= RS_M_MAX`, `1 <= nsym <= RS_NSYM_MAX`, with `m` the highest set bit of `poly` (R211). -/
def rsOperandsOk (p : Params) (poly nsym : Nat) : Bool :=
  decide (2 ≤ poly) && decide (poly.log2 ≤ p.rsMMax) && decide (1 ≤ nsym) && decide (nsym ≤ p.rsNsymMax)

/-- The tables of a field polynomial (R211, R213). -/
def tablesOf (poly : Word) : Tables :=
  let m := poly.toNat.log2
  let w := tableWalk m poly
  { logmod := 2 ^ m - 1, log := w.log, alog := w.alog }

/-- The unit that `RS.INIT` builds (R217): tables, generator, configuration registers, and an empty `rs.ecc`. -/
def rsBuild (poly : Word) (nsym index : Nat) : Option RsUnit :=
  let t := tablesOf poly
  match generator t index nsym with
  | some g =>
    some
      { valid := true
        poly := poly.setWidth 17
        m := BitVec.ofNat 5 poly.toNat.log2
        logmod := BitVec.ofNat 16 t.logmod
        nsym := BitVec.ofNat 16 nsym
        idx := BitVec.ofNat 16 index
        log := t.log
        alog := t.alog
        gen := g
        ecc := [] }
  | none => none

/-- `RS.INIT Xa, Xb, index` (R217). -/
def execRsInit (ra rb : RegNum) (imm16 : BitVec 16) (s : State) : Host.Outcome State Fault Refusal :=
  finish s (.rsInit ra rb imm16)
    (if rsOperandsOk s.cfg (s.num ra) (s.num rb) then
       match rsBuild (s.getX ra) (s.num rb) imm16.toNat with
       | some u => .ok (s.setRs u)
       | none => .error .unsupportedConfiguration
     else .error .unsupportedConfiguration)

/-! Encoding. -/

/-- The tables the unit holds. -/
def RsUnit.tables (u : RsUnit) : Tables := { logmod := u.logmod.toNat, log := u.log, alog := u.alog }

/-- One cell of the shift register (R218): its lower neighbour, plus `gfmul(fb, coefficient)`. -/
def lfsrCell (t : Tables) (fb coef lower : Sym) : Option Sym :=
  match t.gfmul fb coef with
  | some v => some (lower ^^^ v)
  | none => none

/-- One input symbol (R218): the feedback term, then every cell from its lower neighbour and its coefficient; the shift
brings a zero into cell 0. -/
def lfsrStep (t : Tables) (gen : List Sym) (r : List Sym) (d : Sym) : Option (List Sym) :=
  let fb := r.getLastD 0 ^^^ d
  collect (List.zipWith (lfsrCell t fb) (gen.take r.length) (0 :: r))

/-- The register after a run of symbols (R218). -/
def lfsrRun (t : Tables) (gen : List Sym) : List Sym → List Sym → Option (List Sym)
  | r, [] => some r
  | r, d :: ds =>
    match lfsrStep t gen r d with
    | some r' => lfsrRun t gen r' ds
    | none => none

/-- The encoder (R218): the register starts at zero for every encode. -/
def RsUnit.encode (u : RsUnit) (data : List Sym) : Option (List Sym) :=
  lfsrRun u.tables u.gen (List.replicate u.nsym.toNat 0) data

/-- The encode commands, after the width test: every symbol below `2^RSM`, then the register into `rs.ecc` (R219,
R220). -/
def rsEncode (s : State) (data : List Sym) : Except ErrorKind State :=
  if data.all fun d => decide (d.toNat < 2 ^ s.rs.m.toNat) then
    match s.rs.encode data with
    | some r => .ok (s.setRs { s.rs with ecc := r })
    | none => .error .unsupportedConfiguration
  else .error .outOfRange

/-- `RS.ENCN Ck` (R219): the narrow variant, for a field of at most 256 elements. -/
def execRsEncn (k : Ix) (s : State) : Host.Outcome State Fault Refusal :=
  finish s (.rsEncn k)
    (if !s.rs.valid then .error .unsupportedConfiguration
     else if 8 < s.rs.m.toNat then .error .unsupportedConfiguration
     else rsEncode s ((s.getC k).map (BitVec.setWidth 16)))

/-- `RS.ENCW Ss` (R220): the wide variant. -/
def execRsEncw (j : BitVec 1) (s : State) : Host.Outcome State Fault Refusal :=
  finish s (.rsEncw j)
    (if !s.rs.valid then .error .unsupportedConfiguration
     else rsEncode s (s.getS j))

/-! Reading results and tables. -/

/-- A read command's result: the element, zero-extended, or `OutOfRange`. -/
def readSym (s : State) (ra : RegNum) (v : Option Sym) : Except ErrorKind State :=
  match v with
  | some e => .ok (s.setX ra (e.setWidth 32))
  | none => .error .outOfRange

/-- `RS.GETE Xa, Xb` (R223). -/
def execRsGete (ra rb : RegNum) (s : State) : Host.Outcome State Fault Refusal :=
  finish s (.rsGete ra rb) (readSym s ra s.rs.ecc[s.num rb]?)

/-- `RS.GETG Xa, Xb` (R224). -/
def execRsGetg (ra rb : RegNum) (s : State) : Host.Outcome State Fault Refusal :=
  finish s (.rsGetg ra rb)
    (if !s.rs.valid || decide (s.rs.nsym.toNat < s.num rb) then .error .outOfRange
     else readSym s ra s.rs.gen[s.num rb]?)

/-- `RS.GETL Xa, Xb` (R225): an unwritten entry is `OutOfRange`. -/
def execRsGetl (ra rb : RegNum) (s : State) : Host.Outcome State Fault Refusal :=
  finish s (.rsGetl ra rb)
    (if !s.rs.valid || decide (2 ^ s.rs.m.toNat ≤ s.num rb) then .error .outOfRange
     else readSym s ra s.rs.log[s.num rb]?.join)

/-- `RS.GETA Xa, Xb` (R226): an unwritten entry is `OutOfRange`. -/
def execRsGeta (ra rb : RegNum) (s : State) : Host.Outcome State Fault Refusal :=
  finish s (.rsGeta ra rb)
    (if !s.rs.valid || decide (2 ^ s.rs.m.toNat ≤ s.num rb) then .error .outOfRange
     else readSym s ra s.rs.alog[s.num rb]?.join)

end Sys2Proof.Machine
end

