-- ==== Sys2Proof/Machine/SymbolRow.lean ====
section
/-! DEFINITION. Unit SR, the symbol-row store (47_symbolrow.md). -/

namespace Sys2Proof.Machine

/-- The cell value of a module (R341, R351). -/
def Module.code : Module → BitVec 3
  | .space => 0
  | .bar => 1
  | .guardNormal => 2
  | .guardExtended => 3
  | .guardShort => 4

/-- A bar or a space (R341). -/
def barIf (v : Bool) : Module := if v then .bar else .space

/-- `SR.CLR` (R342). -/
def execSrClr (s : State) : Host.Outcome State Fault Refusal :=
  finish s .srClr (.ok (s.setRows []))

/-- Run-length expansion (R344): each digit is a run, bars and spaces in turn. -/
def expandRuns : Bool → List Char8 → List Module
  | _, [] => []
  | v, c :: cs => List.replicate (dval c) (barIf v) ++ expandRuns (!v) cs

/-- The sum of the digits: the modules of the row (R343, R344). -/
def runTotal (cs : List Char8) : Nat := (cs.map dval).sum

/-- `SR.RLE Ck, h8` (R343). -/
def execSrRle (k : Ix) (h8 : BitVec 8) (s : State) : Host.Outcome State Fault Refusal :=
  finish s (.srRle k h8)
    (if !(s.getC k).all isDigit then .error .invalidCharacter
     else if s.cfg.rowMax ≤ s.rows.length then .error .lengthExceeded
     else if s.cfg.rowLenMax < runTotal (s.getC k) then .error .lengthExceeded
     else .ok (s.setRows (s.rows ++ [{ mods := expandRuns true (s.getC k), h := h8 }])))

/-- One row of a four-state pattern (R345): the presence in that row, then an empty cell, for each character. -/
def fourRow (map : Vector (Bool × Bool × Bool) 4) (row : Bool × Bool × Bool → Bool) (cs : List Char8) : List Module :=
  cs.flatMap fun c => [barIf ((fourState map c).any row), .space]

/-- `SR.FOUR Ck` (R345): three rows of heights 4.0, 2.5 and 4.0 units. -/
def execSrFour (k : Ix) (s : State) : Host.Outcome State Fault Refusal :=
  finish s (.srFour k)
    (if !(s.getC k).all fun c => (fourState s.cfg.fourstateMap c).isSome then .error .invalidCharacter
     else if s.cfg.rowMax < s.rows.length + 3 then .error .lengthExceeded
     else if s.cfg.rowLenMax < 2 * (s.getC k).length then .error .lengthExceeded
     else .ok (s.setRows (s.rows ++
       [{ mods := fourRow s.cfg.fourstateMap (fun t => t.1) (s.getC k), h := 8 },
        { mods := fourRow s.cfg.fourstateMap (fun t => t.2.1) (s.getC k), h := 5 },
        { mods := fourRow s.cfg.fourstateMap (fun t => t.2.2) (s.getC k), h := 8 }])))

/-- `SRNROW` (R32): the number of rows. -/
def State.srnrow (s : State) : BitVec 16 := BitVec.ofNat 16 s.rows.length

/-- `SR.NROW Xa` (R347). -/
def execSrNrow (ra : RegNum) (s : State) : Host.Outcome State Fault Refusal :=
  finish s (.srNrow ra) (.ok (s.setX ra (s.srnrow.setWidth 32)))

/-- A read of row `X[rb]`, `OutOfRange` when there is none (R348 to R350). -/
def readRow (s : State) (ra rb : RegNum) (f : Row → Option Word) : Except ErrorKind State :=
  match s.rows[s.num rb]? with
  | some r =>
    match f r with
    | some v => .ok (s.setX ra v)
    | none => .error .outOfRange
  | none => .error .outOfRange

/-- `SR.RLEN Xa, Xb` (R348). -/
def execSrRlen (ra rb : RegNum) (s : State) : Host.Outcome State Fault Refusal :=
  finish s (.srRlen ra rb) (readRow s ra rb fun r => some (natWord r.mods.length))

/-- `SR.GETM Xa, Xb, col` (R349). -/
def execSrGetm (ra rb : RegNum) (imm16 : BitVec 16) (s : State) : Host.Outcome State Fault Refusal :=
  finish s (.srGetm ra rb imm16)
    (readRow s ra rb fun r => r.mods[imm16.toNat]?.map fun v => v.code.setWidth 32)

/-- `SR.GETH Xa, Xb` (R350). -/
def execSrGeth (ra rb : RegNum) (s : State) : Host.Outcome State Fault Refusal :=
  finish s (.srGeth ra rb) (readRow s ra rb fun r => some (r.h.setWidth 32))

end Sys2Proof.Machine
end

