-- ==== Sys2Proof/Machine/SysBuf.lean ====
section
/-! DEFINITION. The frame commands SYS and BUF (40_sys_buf.md). -/

namespace Sys2Proof.Machine

/-- `NOP` (R111): no operation; it does clear `ST.code`. -/
def execNop (s : State) : Host.Outcome State Fault Refusal :=
  finish s .nop (.ok s)

/-- `LI Xa, imm16` (R112). -/
def execLi (ra : RegNum) (imm16 : BitVec 16) (s : State) : Host.Outcome State Fault Refusal :=
  finish s (.li ra imm16) (.ok (s.setX ra (immWord imm16)))

/-- `imm16 || v[15:0]` (R113). -/
def loadUpper (imm16 : BitVec 16) (v : Word) : Word := imm16 ++ v.extractLsb' 0 16

/-- `LUI Xa, imm16` (R113). -/
def execLui (ra : RegNum) (imm16 : BitVec 16) (s : State) : Host.Outcome State Fault Refusal :=
  finish s (.lui ra imm16) (.ok (s.setX ra (loadUpper imm16 (s.getX ra))))

/-- `CLRERR` (R114): `EF <- 0`; `ECMD` keeps its value. -/
def execClrerr (s : State) : Host.Outcome State Fault Refusal :=
  finish s .clrerr (.ok s.clearEf)

/-- `SRST` (R115, R401): every piece of state takes its reset value. -/
def execSrst (s : State) : Host.Outcome State Fault Refusal :=
  finish s .srst (.ok s.resetAll)

/-- `BCLR sp` (R117). -/
def execBclr (sp : BitVec 3) (s : State) : Host.Outcome State Fault Refusal :=
  finish s (.bclr sp) (withBuf sp fun r => .ok (s.bufClear r))

/-- `BPUT Xa, sp` (R118): `OutOfRange` for a value too wide for an element, then `LengthExceeded` on a full buffer. -/
def execBput (ra : RegNum) (sp : BitVec 3) (s : State) : Host.Outcome State Fault Refusal :=
  finish s (.bput ra sp) (withBuf sp fun r =>
    if 2 ^ r.width ≤ s.num ra then .error .outOfRange
    else if r.max s.cfg ≤ s.bufLen r then .error .lengthExceeded
    else .ok (s.bufAppend r (s.getX ra)))

/-- `BGET Xa, Xb, sp` (R119). -/
def execBget (ra rb : RegNum) (sp : BitVec 3) (s : State) : Host.Outcome State Fault Refusal :=
  finish s (.bget ra rb sp) (withBuf sp fun r =>
    match s.bufRead r (s.num rb) with
    | some v => .ok (s.setX ra v)
    | none => .error .outOfRange)

/-- `BLEN Xa, sp` (R120). -/
def execBlen (ra : RegNum) (sp : BitVec 3) (s : State) : Host.Outcome State Fault Refusal :=
  finish s (.blen ra sp) (withBuf sp fun r => .ok (s.setX ra (natWord (s.bufLen r))))

end Sys2Proof.Machine
end

