-- ==== Sys2Proof/Machine/Dispatch.lean ====
section
/-! DEFINITION. The execution of a command: one arm per constructor of Instr. -/

namespace Sys2Proof.Machine

/-- One command as one atomic change of state (R11, R110). -/
def exec (i : Instr) (s : State) : Host.Outcome State Fault Refusal :=
  match i with
  | .nop => Sys2Proof.Machine.execNop s
  | .li ra imm16 => Sys2Proof.Machine.execLi ra imm16 s
  | .lui ra imm16 => Sys2Proof.Machine.execLui ra imm16 s
  | .clrerr => Sys2Proof.Machine.execClrerr s
  | .srst => Sys2Proof.Machine.execSrst s
  | .bclr sp => Sys2Proof.Machine.execBclr sp s
  | .bput ra sp => Sys2Proof.Machine.execBput ra sp s
  | .bget ra rb sp => Sys2Proof.Machine.execBget ra rb sp s
  | .blen ra sp => Sys2Proof.Machine.execBlen ra sp s
  | .bsClr b => Sys2Proof.Machine.execBsClr b s
  | .bsApb ra b => Sys2Proof.Machine.execBsApb ra b s
  | .bsApbs ra n6 b => Sys2Proof.Machine.execBsApbs ra n6 b s
  | .bsIns ra rb b => Sys2Proof.Machine.execBsIns ra rb b s
  | .bsRem ra rb b => Sys2Proof.Machine.execBsRem ra rb b s
  | .bsXor b b2 => Sys2Proof.Machine.execBsXor b b2 s
  | .bsGet ra rb b => Sys2Proof.Machine.execBsGet ra rb b s
  | .bsSet ra rb b => Sys2Proof.Machine.execBsSet ra rb b s
  | .bsTob b k => Sys2Proof.Machine.execBsTob b k s
  | .bsSize ra b => Sys2Proof.Machine.execBsSize ra b s
  | .bsSizeb ra b => Sys2Proof.Machine.execBsSizeb ra b s
  | .ckMod10 ra k => Sys2Proof.Machine.execCkMod10 ra k s
  | .ckMod11 ra k => Sys2Proof.Machine.execCkMod11 ra k s
  | .ckMod43 ra k => Sys2Proof.Machine.execCkMod43 ra k s
  | .ckOpcc ra k => Sys2Proof.Machine.execCkOpcc ra k s
  | .lnClr la => Sys2Proof.Machine.execLnClr la s
  | .lnAdd la lb => Sys2Proof.Machine.execLnAdd la lb s
  | .lnSub la lb => Sys2Proof.Machine.execLnSub la lb s
  | .lnMul la k => Sys2Proof.Machine.execLnMul la k s
  | .lnShu la => Sys2Proof.Machine.execLnShu la s
  | .lnShd la => Sys2Proof.Machine.execLnShd la s
  | .lnCmp ra la lb => Sys2Proof.Machine.execLnCmp ra la lb s
  | .lnLdec la k => Sys2Proof.Machine.execLnLdec la k s
  | .lnGetb ra rb la => Sys2Proof.Machine.execLnGetb ra rb la s
  | .lnSetb ra rb la => Sys2Proof.Machine.execLnSetb ra rb la s
  | .rsInit ra rb imm16 => Sys2Proof.Machine.execRsInit ra rb imm16 s
  | .rsEncn k => Sys2Proof.Machine.execRsEncn k s
  | .rsEncw j => Sys2Proof.Machine.execRsEncw j s
  | .rsGete ra rb => Sys2Proof.Machine.execRsGete ra rb s
  | .rsGetg ra rb => Sys2Proof.Machine.execRsGetg ra rb s
  | .rsGetl ra rb => Sys2Proof.Machine.execRsGetl ra rb s
  | .rsGeta ra rb => Sys2Proof.Machine.execRsGeta ra rb s
  | .aiGs1 src dst => Sys2Proof.Machine.execAiGs1 src dst s
  | .aiHibc src dst => Sys2Proof.Machine.execAiHibc src dst s
  | .aiTilde src dst => Sys2Proof.Machine.execAiTilde src dst s
  | .aiCnt ra => Sys2Proof.Machine.execAiCnt ra s
  | .aiGetr ra rb f => Sys2Proof.Machine.execAiGetr ra rb f s
  | .dcEnc ra src dst md sym => Sys2Proof.Machine.execDcEnc ra src dst md sym s
  | .dcTgt ra b wc cm => Sys2Proof.Machine.execDcTgt ra b wc cm s
  | .dcEccl ra rb => Sys2Proof.Machine.execDcEccl ra rb s
  | .dcPad ra b => Sys2Proof.Machine.execDcPad ra b s
  | .dcGetm ra => Sys2Proof.Machine.execDcGetm ra s
  | .dcSetm m2 => Sys2Proof.Machine.execDcSetm m2 s
  | .srClr => Sys2Proof.Machine.execSrClr s
  | .srRle k h8 => Sys2Proof.Machine.execSrRle k h8 s
  | .srFour k => Sys2Proof.Machine.execSrFour k s
  | .srNrow ra => Sys2Proof.Machine.execSrNrow ra s
  | .srRlen ra rb => Sys2Proof.Machine.execSrRlen ra rb s
  | .srGetm ra rb imm16 => Sys2Proof.Machine.execSrGetm ra rb imm16 s
  | .srGeth ra rb => Sys2Proof.Machine.execSrGeth ra rb s

end Sys2Proof.Machine
end

