-- ==== Sys2Proof/Machine/HostPort.lean ====
section
/-! DEFINITION. The host port (20_memory.md R70 to R73): what the host reads and writes between two commands, the
control register map (R35), the spaces (R61), and the outgoing signal `err` (R381). -/

namespace Sys2Proof.Machine

/-! Reading. A read changes nothing (R63), so it is a function of the state and no step. -/

/-- `BSCAPb` (R34). -/
def State.bscap (s : State) (b : Ix) : Word := natWord (s.getB b).cap

/-- `DCMODE` as a control register (R29, R35). -/
def State.dcmodeWord (s : State) : Word := s.dcmode.code.setWidth 32

/-- A host read of a control register by number (R35): a number not listed reads 0. -/
def State.readControl (s : State) (n : Nat) : Word :=
  match n with
  | 0 => s.st
  | 1 => s.ef
  | 2 => s.ecmd
  | 3 => s.dcmodeWord
  | 4 => bitWord s.rs.valid
  | 5 => s.rs.poly.setWidth 32
  | 6 => s.rs.m.setWidth 32
  | 7 => s.rs.logmod.setWidth 32
  | 8 => s.rs.nsym.setWidth 32
  | 9 => s.rs.idx.setWidth 32
  | 10 => s.aicnt.setWidth 32
  | 11 => s.srnrow.setWidth 32
  | 12 => s.bscap 0
  | 13 => s.bscap 1
  | 14 => s.bscap 2
  | 15 => s.bscap 3
  | 16 => Config.coreId
  | _ => 0

/-- The spaces (R61). -/
inductive Space where
  | chars (k : Ix)
  | syms (j : BitVec 1)
  | bits (b : Ix)
  | cells (r : Ix)
  | rslog | rsalog | rsgen | rsecc | air | rows
deriving DecidableEq, Repr

/-- The space of a number (R61): 6, 7 and those above 21 do not exist. -/
def Space.ofNumber (n : Nat) : Option Space :=
  if n < 4 then some (.chars (BitVec.ofNat 2 n))
  else if n < 6 then some (.syms (BitVec.ofNat 1 (n - 4)))
  else if n < 8 then none
  else if n < 12 then some (.bits (BitVec.ofNat 2 (n - 8)))
  else if n < 16 then some (.cells (BitVec.ofNat 2 (n - 12)))
  else match n with
    | 16 => some .rslog
    | 17 => some .rsalog
    | 18 => some .rsgen
    | 19 => some .rsecc
    | 20 => some .air
    | 21 => some .rows
    | _ => none

/-- An element of a space (R61). A table entry whose `written` bit is 0 is read as `none` (R70, U3). -/
inductive Element where
  | char (v : Char8)
  | sym (v : Sym)
  | bit (v : Bool)
  | entry (v : TableEntry)
  | record (v : AiRecord)
  | row (v : Row)
deriving DecidableEq, Repr

/-- The elements of a space in index order (R60, R61); the table spaces have length 0 while `RSVALID = 0`. -/
def State.elements (s : State) : Space → List Element
  | .chars k => (s.getC k).map .char
  | .syms j => (s.getS j).map .sym
  | .bits b => (s.getB b).bits.map .bit
  | .cells r => (List.range Config.lnCells).map fun i => .bit ((s.getL r).getLsbD i)
  | .rslog => if s.rs.valid then s.rs.log.map .entry else []
  | .rsalog => if s.rs.valid then s.rs.alog.map .entry else []
  | .rsgen => if s.rs.valid then s.rs.gen.map .sym else []
  | .rsecc => if s.rs.valid then s.rs.ecc.map .sym else []
  | .air => s.air.map .record
  | .rows => s.rows.map .row

/-- A host read of the length of a space (R70). -/
def State.spaceLen (s : State) (sp : Space) : Nat := (s.elements sp).length

/-- `MemRead(sp:i, 1)`; the host has no read at or beyond the length (R60, R70). -/
def State.memRead (s : State) (sp : Space) (i : Nat) : Option Element := (s.elements sp)[i]?

/-- The signal `err`, raised with `done` when `ST.code` is not 0 (R73, R381). -/
def State.err (s : State) : Bool := stCode s.st != 0

/-! Writing (R71): the conditions on the moves of Sequencer.lean's `hostMove`. A move the spec does not give the host
stops the model (U11, log 12); `ST`, `EF`, `ECMD` and everything R72 lists stay as they are. -/

/-- Replace the whole contents of a space by a sequence within its maximum. -/
def hostLoad (fits : Bool) (t : State) : Host.Outcome State Fault Refusal :=
  if fits then .next t else .refused .hostMoveNotOffered

/-- Write one existing element. -/
def hostPoke (existing : Bool) (t : State) : Host.Outcome State Fault Refusal :=
  if existing then .next t else .fault .noSuchElement

/-- The capacity after a host write of `size` bits: the least `BS_CAP0 * 2^j` that holds them, never less than before
(R71). -/
def hostCap (cap0 before size : Nat) : Nat := Nat.max before (growCap size cap0 size)

/-- Rows the host may append: each within `ROW_LEN_MAX`, all within `ROW_MAX` (R32, R42, log 13). -/
def rowsFit (p : Params) (old new : List Row) : Bool :=
  decide (old.length + new.length ≤ p.rowMax) &&
    new.all fun r => decide (r.mods.length ≤ p.rowLenMax)

end Sys2Proof.Machine
end

