-- ==== Sys2Proof/Machine/Sequencer.lean ====
section
/-! DEFINITION. The command sequencer (R10): what one move of the host does. -/

namespace Sys2Proof.Machine

/-- A command word: decoded first (R110), executed if it is a command, else failed as illegal (R95, R368). -/
def runWord (w : Word) (s : State) : Host.Outcome State Fault Refusal :=
  match decode w with
  | .ok i => exec i s
  | .error _ => illegalWord s w

/-- One move of the host: a command word, the reset input, or a port write. -/
def hostMove (m : HostMove) (s : State) : Host.Outcome State Fault Refusal :=
  match m with
  | .issue w => runWord w s
  | .reset => .next s.resetAll
  | .writeX r v => .next (s.setX r v)
  | .loadC k cs => hostLoad (decide (cs.length ≤ s.cfg.cMax)) (s.setC k cs)
  | .pokeC k i v => hostPoke (decide (i < (s.getC k).length)) (s.setC k ((s.getC k).set i v))
  | .loadS j vs => hostLoad (decide (vs.length ≤ s.cfg.sMax)) (s.setS j vs)
  | .pokeS j i v => hostPoke (decide (i < (s.getS j).length)) (s.setS j ((s.getS j).set i v))
  | .loadB b bits =>
    hostLoad (decide (bits.length ≤ s.cfg.bsMaxBits))
      (s.setB b { bits := bits, cap := hostCap s.cfg.bsCap0 (s.getB b).cap bits.length })
  | .pokeL r i v => hostPoke (decide (i < Config.lnCells)) (s.setL r (setCell (s.getL r) i v))
  | .writeMode m => .next (s.setMode m)
  | .appendRows rs => hostLoad (rowsFit s.cfg s.rows rs) (s.setRows (s.rows ++ rs))
  | .clearRows => .next (s.setRows [])

/-- The state with the host's first move taken off its list. -/
def State.takeMove (s : State) (rest : List HostMove) : State := { s with host := rest }

end Sys2Proof.Machine
end

