-- ==== Sys2Proof/Machine/Step.lean ====
section
/-! DEFINITION. One step: the host's next move (R11, R24, R74). -/

namespace Sys2Proof.Machine

/-- One step: the host's first move is taken off its list and happens. With no move the machine is idle and holds its
state (R390, log 2). -/
def step (s : State) : Host.Outcome State Fault Refusal :=
  match s.host with
  | [] => .next s
  | m :: rest => hostMove m (s.takeMove rest)

/-- The state in which the host issues, as its very next move, the instruction whose bits are `w`, `nbits` of them
given (log 1). -/
def State.withFetchWord (s : State) (nbits w : Nat) : State :=
  { s with host := .issue (BitVec.ofNat 32 (w % 2 ^ nbits)) :: s.host }

end Sys2Proof.Machine
end

