-- ==== Sys2Proof/Machine/LargeNumCells.lean ====
section
/-! DEFINITION. The cell-level algorithms of unit LN as the spec prints them: the ripple-carry adder (R184), the
two's-complement subtraction (R187), the downward scan of the comparator (R190), the repeated-addition load (R191) and
the shift-and-add multiplier (R192). No meaning calls them: obligations say that they agree with the values of
LargeNum.lean (R181). -/

namespace Sys2Proof.Machine

/-- The carry into cell `i` of the ripple (R184). -/
def cellCarry (a b : Large) (cin : Bool) : Nat → Bool
  | 0 => cin
  | i + 1 =>
    let c := cellCarry a b cin i
    decide (2 ≤ (a.getLsbD i).toNat + (b.getLsbD i).toNat + c.toNat)

/-- The sum cell `i` of the ripple: `t mod 2` (R184). -/
def cellSum (a b : Large) (cin : Bool) (i : Nat) : Bool :=
  decide (((a.getLsbD i).toNat + (b.getLsbD i).toNat + (cellCarry a b cin i).toNat) % 2 = 1)

/-- `add112(a, b, cin)` (R184): cell by cell, the carry out of cell 111 dropped. -/
def add112 (a b : Large) (cin : Bool) : Large :=
  (List.range Config.lnCells).foldl (fun r i => setCell r i (cellSum a b cin i)) 0

/-- `subtract` on cells (R187): invert, add, then add 1 at position 0. -/
def sub112 (a b : Large) : Large := add112 (add112 a (~~~b) false) 1 false

/-- The comparator's scan from cell `i - 1` down to cell 0 (R190). -/
def scanCompare (a b : Large) : Nat → Bool
  | 0 => false
  | i + 1 =>
    if a.getLsbD i && !b.getLsbD i then true
    else if !a.getLsbD i && b.getLsbD i then false
    else scanCompare a b i

/-- `r <- add112(r, t, 0)`, a number of times (R191). -/
def repeatAdd (t : Large) : Nat → Large → Large
  | 0, r => r
  | n + 1, r => repeatAdd t n (add112 r t false)

/-- One character of the load: nine additions make `10 * r`, one more adds the digit (R191). -/
def loadDigit (r : Large) (c : Char8) : Large :=
  add112 (repeatAdd r 9 r) (BitVec.ofNat 112 (dval c)) false

/-- `load_decimal` on cells (R191). -/
def loadCells (old : Large) (cs : List Char8) : Large := cs.foldl loadDigit old

/-- The multiplier's loop from iteration `i`, `turns` of them left (R192). -/
def multiplyLoop (t : Large) : Nat → Nat → Large → Large → Large
  | 0, _, acc, _ => acc
  | turns + 1, i, acc, r =>
    multiplyLoop t turns (i + 1) (if t.getLsbD i then add112 acc r false else acc) (r <<< 1)

/-- `multiply` on cells (R192). -/
def mul112 (r t : Large) : Large := multiplyLoop t Config.lnMulIter 0 0 r

end Sys2Proof.Machine
end

