-- ==== Sys2Proof/Safety.lean ====
section
/-! DEFINITION. What claims about ZNCORE are said in: which states are safe (R47), what a command may change (R62), what
a failure leaves (R370, R372), the opcode table as the spec prints it (R94), and long division (R227). -/

namespace Sys2Proof.Machine

/-! The parameters. -/

/-- Parameters a machine can have (R9, log 28): a buffer maximum that the locations of an AI record and the longest HIBC
output fit (R41, R272); a stream capacity that doubles up to `BS_MAX_BITS / 8` (R8, R38); counts and sizes within their
registers (R21, R30, R35); 43 distinct characters (R165); a code no longer than `append_bits` takes (R135); a look-ahead
of at least one character, as R298's progress needs; rows within their registers. The code values and the maps are
unconstrained. -/
structure Params.Ok (p : Params) : Prop where
  charsLow : Config.hibcMax < p.cMax
  charsHigh : p.cMax ≤ 2 ^ 16
  syms : p.sMax < 2 ^ 32
  capacity : 1 ≤ p.bsCap0
  doubling : ∃ j, p.bsMaxBits = 8 * (p.bsCap0 * 2 ^ j)
  bits : p.bsMaxBits < 2 ^ 32
  field : p.rsMMax ≤ 16
  symbols : p.rsNsymMax < 2 ^ 16
  records : p.aiMax < 2 ^ 16
  set : p.c39set.length = 43 ∧ p.c39set.Nodup
  latch : p.dcCodes.toNumW ≤ Config.bsAppendMax
  ahead : 1 ≤ p.dcIso2AlnRun
  rows : p.rowMax < 2 ^ 16
  modules : p.rowLenMax < 2 ^ 32

/-! Safe states. -/

/-- A bit stream's shape (R38, R131): the capacity is `BS_CAP0` doubled some number of times, at most
`BS_MAX_BITS / 8`, and holds the bits. -/
def BitStream.Ok (p : Params) (v : BitStream) : Prop :=
  v.bits.length ≤ 8 * v.cap ∧ v.bits.length ≤ p.bsMaxBits ∧ v.cap ≤ p.bsMaxBits / 8 ∧ ∃ j, v.cap = p.bsCap0 * 2 ^ j

/-- The Reed-Solomon configuration registers and tables (R47); before the first `RS.INIT` they are as reset leaves
them. -/
def RsUnit.Ok (p : Params) (u : RsUnit) : Prop :=
  if u.valid then
    1 ≤ u.m.toNat ∧ u.m.toNat ≤ p.rsMMax ∧ u.logmod.toNat = 2 ^ u.m.toNat - 1 ∧
    1 ≤ u.nsym.toNat ∧ u.nsym.toNat ≤ p.rsNsymMax ∧
    u.log.length = 2 ^ u.m.toNat ∧ u.alog.length = 2 ^ u.m.toNat ∧
    u.gen.length = u.nsym.toNat + 1 ∧ u.gen[u.nsym.toNat]? = some 1 ∧
    (u.ecc = [] ∨ u.ecc.length = u.nsym.toNat)
  else u = RsUnit.empty

/-- R47: what holds in every reachable state of a machine with possible parameters. Cell counts and module values hold by
their types. -/
structure StateOk (s : State) : Prop where
  params : s.cfg.Ok
  chars : ∀ k, (s.getC k).length ≤ s.cfg.cMax
  syms : ∀ j, (s.getS j).length ≤ s.cfg.sMax
  bits : ∀ b, (s.getB b).Ok s.cfg
  rs : s.rs.Ok s.cfg
  air : s.air.length ≤ s.cfg.aiMax
  rows : s.rows.length ≤ s.cfg.rowMax
  modules : ∀ r ∈ s.rows, r.mods.length ≤ s.cfg.rowLenMax

/-- The status registers (R25, R26, R370): a code of R360 and zeros above it; zeros in the reserved bits of `EF`; and
the bit of the current code is set in `EF`. -/
structure StatusOk (s : State) : Prop where
  code : s.st.toNat ≤ 8
  reserved : s.ef &&& ~~~0x1FE#32 = 0
  remembered : s.st ≠ 0 → s.ef.getLsbD s.st.toNat = true

/-- The tables are a function of the triple (R222): they are what `RS.INIT` builds from the polynomial, the symbol
count and the root index in the configuration registers; only the check symbols differ. -/
def RsBuilt (s : State) : Prop :=
  s.rs = RsUnit.empty ∨
    ∃ (poly : Word) (nsym index : Nat) (u : RsUnit),
      rsOperandsOk s.cfg poly.toNat nsym = true ∧ index < 2 ^ 16 ∧ rsBuild poly nsym index = some u ∧
      u.poly.toNat = poly.toNat ∧ u.nsym.toNat = nsym ∧ u.idx.toNat = index ∧ s.rs = { u with ecc := s.rs.ecc }

/-! How a command ends, and what it leaves alone. -/

/-- The command fails with kind `k`: `ST`, `EF` and `ECMD` as R370 says, and nothing else (R372). -/
def FailsWith (i : Instr) (s : State) (k : ErrorKind) : Prop :=
  exec i s = .next { s with
    st := k.code.setWidth 32
    ef := s.ef ||| (1#32 <<< k.code.toNat)
    ecmd := encode i }

/-- `t` follows `s` by a success that changed no state at all but `ST`. -/
def OnlyStatus (s t : State) : Prop := t = { s with st := 0 }

/-- A success that changed `X[ra]` alone. -/
def OnlyX (s t : State) (ra : RegNum) : Prop :=
  t = { s with x := t.x, st := 0 } ∧ ∀ r, r ≠ ra → t.getX r = s.getX r

/-- A success that changed `C[k]` alone. -/
def OnlyC (s t : State) (k : Ix) : Prop :=
  t = { s with c := t.c, st := 0 } ∧ ∀ j, j ≠ k → t.getC j = s.getC j

/-- A success that changed `S[j]` alone. -/
def OnlyS (s t : State) (j : BitVec 1) : Prop :=
  t = { s with sy := t.sy, st := 0 } ∧ ∀ i, i ≠ j → t.getS i = s.getS i

/-- A success that changed `B[b]` alone. -/
def OnlyB (s t : State) (b : Ix) : Prop :=
  t = { s with b := t.b, st := 0 } ∧ ∀ j, j ≠ b → t.getB j = s.getB j

/-- A success that changed `B[b]` and `DCMODE` alone. -/
def OnlyBMode (s t : State) (b : Ix) : Prop :=
  t = { s with b := t.b, dcmode := t.dcmode, st := 0 } ∧ ∀ j, j ≠ b → t.getB j = s.getB j

/-- A success that changed `L[r]` alone. -/
def OnlyL (s t : State) (r : Ix) : Prop :=
  t = { s with l := t.l, st := 0 } ∧ ∀ j, j ≠ r → t.getL j = s.getL j

/-- A success that changed the row store alone. -/
def OnlyRows (s t : State) : Prop := t = { s with rows := t.rows, st := 0 }

/-- What a command may change besides `ST`, and besides `EF` and `ECMD` when it fails. -/
structure Footprint where
  x : Option RegNum := none
  c : Option Ix := none
  sy : Option (BitVec 1) := none
  b : Option Ix := none
  l : Option Ix := none
  mode : Bool := false
  /-- The Reed-Solomon configuration, tables and generator. -/
  tables : Bool := false
  ecc : Bool := false
  air : Bool := false
  rows : Bool := false
deriving DecidableEq, Repr

/-- The state each command may write, from R62 and the Operation of each command rule. `SRST` writes everything and is
left out of the statements that use this. -/
def footprint : Instr → Footprint
  | .nop | .clrerr | .srst => {}
  | .li ra _ | .lui ra _ | .bget ra _ _ | .blen ra _ | .bsGet ra _ _ | .bsSize ra _ | .bsSizeb ra _ => { x := some ra }
  | .ckMod10 ra _ | .ckMod11 ra _ | .ckMod43 ra _ | .ckOpcc ra _ => { x := some ra }
  | .lnCmp ra _ _ | .lnGetb ra _ _ | .rsGete ra _ | .rsGetg ra _ | .rsGetl ra _ | .rsGeta ra _ => { x := some ra }
  | .aiCnt ra | .aiGetr ra _ _ | .dcTgt ra _ _ _ | .dcEccl ra _ | .dcGetm ra => { x := some ra }
  | .srNrow ra | .srRlen ra _ | .srGetm ra _ _ | .srGeth ra _ => { x := some ra }
  | .bclr sp | .bput _ sp =>
    if sp.toNat < 4 then { c := some (sp.setWidth 2) } else { sy := some (sp.setWidth 1) }
  | .bsClr b | .bsApb _ b | .bsApbs _ _ b | .bsIns _ _ b | .bsRem _ _ b | .bsXor b _ | .bsSet _ _ b => { b := some b }
  | .bsTob _ k => { c := some k }
  | .lnClr la | .lnAdd la _ | .lnSub la _ | .lnMul la _ | .lnShu la | .lnShd la | .lnLdec la _ | .lnSetb _ _ la =>
    { l := some la }
  | .rsInit _ _ _ => { tables := true, ecc := true }
  | .rsEncn _ | .rsEncw _ => { ecc := true }
  | .aiGs1 _ dst => { c := some dst, air := true }
  | .aiHibc _ dst | .aiTilde _ dst => { c := some dst }
  | .dcEnc _ _ dst _ _ => { b := some dst, mode := true }
  | .dcPad _ b => { b := some b, mode := true }
  | .dcSetm _ => { mode := true }
  | .srClr | .srRle _ _ | .srFour _ => { rows := true }

/-- `t` agrees with `s` outside a footprint, `ST`, `EF` and `ECMD`. -/
structure Within (f : Footprint) (s t : State) : Prop where
  cfg : t.cfg = s.cfg
  x : ∀ r, f.x ≠ some r → t.getX r = s.getX r
  c : ∀ k, f.c ≠ some k → t.getC k = s.getC k
  sy : ∀ j, f.sy ≠ some j → t.getS j = s.getS j
  b : ∀ b, f.b ≠ some b → t.getB b = s.getB b
  l : ∀ r, f.l ≠ some r → t.getL r = s.getL r
  mode : f.mode = false → t.dcmode = s.dcmode
  tables : f.tables = false → t.rs = { s.rs with ecc := t.rs.ecc }
  ecc : f.ecc = false → t.rs.ecc = s.rs.ecc
  air : f.air = false → t.air = s.air
  rows : f.rows = false → t.rows = s.rows
  host : t.host = s.host

/-! The opcode table. -/

/-- The `match` and `mask` columns of R94, row by row. -/
def opcodeRows : List (Word × Word) :=
  [(0x00000000, 0xFFFFFFFF), (0x01000000, 0xFF0F0000), (0x02000000, 0xFF0F0000), (0x03000000, 0xFFFFFFFF),
   (0x04000000, 0xFFFFFFFF), (0x08000000, 0xFFFFFFF8), (0x09000000, 0xFF0FFFF8), (0x0A000000, 0xFF00FFF8),
   (0x0B000000, 0xFF0FFFF8), (0x10000000, 0xFFFFFFFC), (0x11000000, 0xFF0FFFFC), (0x12000000, 0xFF0FC0FC),
   (0x13000000, 0xFF00FFFC), (0x14000000, 0xFF00FFFC), (0x15000000, 0xFFFFFFCC), (0x16000000, 0xFF00FFFC),
   (0x17000000, 0xFF00FFFC), (0x18000000, 0xFFFFFFCC), (0x19000000, 0xFF0FFFFC), (0x1A000000, 0xFF0FFFFC),
   (0x20000000, 0xFF0FFFFC), (0x21000000, 0xFF0FFFFC), (0x22000000, 0xFF0FFFFC), (0x23000000, 0xFF0FFFFC),
   (0x30000000, 0xFFFFFFFC), (0x31000000, 0xFFFFFFCC), (0x32000000, 0xFFFFFFCC), (0x33000000, 0xFFFFFFCC),
   (0x34000000, 0xFFFFFFFC), (0x35000000, 0xFFFFFFFC), (0x36000000, 0xFF0FFFCC), (0x37000000, 0xFFFFFFCC),
   (0x38000000, 0xFF00FFFC), (0x39000000, 0xFF00FFFC), (0x40000000, 0xFF000000), (0x41000000, 0xFFFFFFFC),
   (0x42000000, 0xFFFFFFFE), (0x43000000, 0xFF00FFFF), (0x44000000, 0xFF00FFFF), (0x45000000, 0xFF00FFFF),
   (0x46000000, 0xFF00FFFF), (0x50000000, 0xFFFFFFCC), (0x51000000, 0xFFFFFFCC), (0x52000000, 0xFFFFFFCC),
   (0x53000000, 0xFF0FFFFF), (0x54000000, 0xFF00FFFC), (0x60000000, 0xFF0FECCC), (0x61000000, 0xFF0FFECC),
   (0x62000000, 0xFF00FFFF), (0x63000000, 0xFF0FFFFC), (0x64000000, 0xFF0FFFFF), (0x65000000, 0xFFFFFFFC),
   (0x70000000, 0xFFFFFFFF), (0x71000000, 0xFFFF00FC), (0x72000000, 0xFFFFFFFC), (0x73000000, 0xFF0FFFFF),
   (0x74000000, 0xFF00FFFF), (0x75000000, 0xFF000000), (0x76000000, 0xFF00FFFF)]

/-- A reserved field value (R95 (c)): `sp` 6 or 7 in opcodes 0x08 to 0x0B, width class 3 in opcode 0x61. -/
def reservedValue (w : Word) : Bool :=
  (decide (0x08 ≤ w.toNat / 2 ^ 24) && decide (w.toNat / 2 ^ 24 ≤ 0x0B) && decide (6 ≤ w.toNat % 8)) ||
    (decide (w.toNat / 2 ^ 24 = 0x61) && decide (w.toNat / 16 % 4 = 3))

/-! Reed-Solomon: complete tables, and the division the register performs. -/

/-- Tables with an entry wherever the rules look one up (R216): every logarithm of a non-zero element, every power
below `logmod`, all of them below `2^m`. A primitive polynomial gives such tables. -/
def Tables.Complete (t : Tables) (m : Nat) : Prop :=
  t.logmod = 2 ^ m - 1 ∧
  (∀ a : Sym, a ≠ 0 → a.toNat < 2 ^ m → ∃ v, t.logOf a = some v) ∧
  (∀ e, ∃ v, t.expOf e = some v ∧ v.toNat < 2 ^ m)

/-- One turn of long division by a monic polynomial (R227): the leading coefficient of the dividend times the rest of
the divisor `low`, both with the highest power first, is added (which is subtracted) below it. -/
def divideTurn (t : Tables) (low : List Sym) (lead : Sym) (rest : List Sym) : Option (List Sym) :=
  match collect (List.zipWith (lfsrCell t lead) low (rest.take low.length)) with
  | some head => some (head ++ rest.drop low.length)
  | none => none

/-- Long division, a number of turns of it: what is left of the dividend. -/
def longDivide (t : Tables) (low : List Sym) : Nat → List Sym → Option (List Sym)
  | 0, p => some p
  | _ + 1, [] => some []
  | turns + 1, lead :: rest =>
    match divideTurn t low lead rest with
    | some p => longDivide t low turns p
    | none => none

/-! GS1 messages. -/

/-- An AI with its data, as a host writes it (R253): a token of 2 to 4 digits and data of printable characters without
brackets. -/
def AiField.Shaped (f : AiField) : Prop :=
  2 ≤ f.tok.length ∧ f.tok.length ≤ 4 ∧ (∀ c ∈ f.tok, isDigit c = true) ∧
  ∀ c ∈ f.data, 32 ≤ c.toNat ∧ c.toNat ≤ 126 ∧ c ≠ openBracket ∧ c ≠ closeBracket

/-- The data field is not empty and of a length every rule of the AI admits (R255, R256, R266). -/
def AiField.Sized (p : Params) (f : AiField) : Prop :=
  f.data ≠ [] ∧ lengthOk p.aiUnknownReject (decimal f.tok) f.data.length = true

/-- An AI field that the parser accepts. -/
def AiField.Valid (p : Params) (f : AiField) : Prop := f.Shaped ∧ f.Sized p

/-- The message of a list of fields: each token in brackets, its data after it. -/
def bracketed (fields : List AiField) : List Char8 :=
  fields.flatMap fun f => openBracket :: f.tok ++ closeBracket :: f.data

/-- The normalized message (R267): the marker stands between two fields when the first of them is not in the
no-separator set. -/
def flattened : List AiField → List Char8
  | [] => []
  | [f] => f.tok ++ f.data
  | f :: g :: rest => f.tok ++ f.data ++ (if noSep f.tok then [] else [Config.sep]) ++ flattened (g :: rest)

/-- What a character escapes to in tilde mode, by its number: `~` and three decimal digits (R273). -/
def escaped (c : Char8) : List Char8 :=
  [tilde, BitVec.ofNat 8 (0x30 + c.toNat / 100), BitVec.ofNat 8 (0x30 + c.toNat / 10 % 10),
   BitVec.ofNat 8 (0x30 + c.toNat % 10)]

/-- The length rules as R262 to R265 print them, row by row: what each asks of the data length `n` of the AI value `v`. -/
def PrintedLengths (v n : Nat) : Prop :=
  ((v = 20 → n = 2) ∧ (v ∈ [422, 424, 426] → n = 3) ∧ (v = 8111 → n = 4) ∧
    (v ∈ [11, 12, 13, 15, 16, 17, 7006, 8005] → n = 6) ∧ (v = 7003 → n = 10) ∧
    (v ∈ [410, 411, 412, 413, 414, 415, 416, 7001] → n = 13) ∧ (v ∈ [1, 2, 8001] → n = 14) ∧
    (v ∈ [402, 8017, 8018] → n = 17) ∧ (v ∈ [0, 8006] → n = 18)) ∧
  ((v = 7010 → n ≤ 2) ∧ (v ∈ [427, 7008] → n ≤ 3) ∧ (v = 7004 → n ≤ 4) ∧ (v = 242 → n ≤ 6) ∧
    (v ∈ [30, 37] → n ≤ 8) ∧ (v ∈ [7009, 8019] → n ≤ 10) ∧ (v ∈ [7005, 8011] → n ≤ 12) ∧
    (v ∈ [10, 21, 22, 243, 254, 420, 7020, 7021, 7022, 710, 711, 712, 713, 714, 8002, 8012] → n ≤ 20) ∧
    (v = 8020 → n ≤ 25) ∧
    (v ∈ [240, 241, 250, 251, 400, 401, 403, 7002, 7023, 8004, 8010, 8013, 90] → n ≤ 30) ∧
    (v = 8007 → n ≤ 34) ∧ (v ∈ [8110, 8112, 8200] → n ≤ 70)) ∧
  (((3100 ≤ v ∧ v ≤ 3169) ∨ (3200 ≤ v ∧ v ≤ 3379) ∨ (3400 ≤ v ∧ v ≤ 3579) ∨ (3600 ≤ v ∧ v ≤ 3699) → n = 6) ∧
    ((3900 ≤ v ∧ v ≤ 3919) ∨ (3920 ≤ v ∧ v ≤ 3929) → n ≤ 15) ∧ (3930 ≤ v ∧ v ≤ 3939 → 4 ≤ n ∧ n ≤ 18) ∧
    (3940 ≤ v ∧ v ≤ 3949 → n = 4) ∧
    (v = 421 → 4 ≤ n ∧ n ≤ 12) ∧ (v ∈ [423, 425] → 4 ≤ n ∧ n ≤ 15) ∧ (v = 7007 → 6 ≤ n ∧ n ≤ 12) ∧
    (7030 ≤ v ∧ v ≤ 7039 → 4 ≤ n ∧ n ≤ 30) ∧ (v = 8003 → 15 ≤ n ∧ n ≤ 30) ∧ (v = 8008 → 9 ≤ n ∧ n ≤ 12) ∧
    (91 ≤ v ∧ v ≤ 99 → n ≤ 90)) ∧
  (v = 253 → n ≤ 31) ∧ (v = 254 → 14 ≤ n ∧ n ≤ 25)

/-- The AI values that the rows of R262 to R265 name; every other value is R266's. -/
def NamedAi (v : Nat) : Prop :=
  v ∈ [20, 422, 424, 426, 8111, 11, 12, 13, 15, 16, 17, 7006, 8005, 7003, 410, 411, 412, 413, 414, 415, 416, 7001, 1, 2, 8001,
    402, 8017, 8018, 0, 8006] ∨
  v ∈ [7010, 427, 7008, 7004, 242, 30, 37, 7009, 8019, 7005, 8011, 10, 21, 22, 243, 254, 420, 7020, 7021, 7022, 710, 711, 712,
    713, 714, 8002, 8012, 8020, 240, 241, 250, 251, 400, 401, 403, 7002, 7023, 8004, 8010, 8013, 90, 8007, 8110, 8112, 8200] ∨
  (3100 ≤ v ∧ v ≤ 3169) ∨ (3200 ≤ v ∧ v ≤ 3379) ∨ (3400 ≤ v ∧ v ≤ 3579) ∨ (3600 ≤ v ∧ v ≤ 3699) ∨
  (3900 ≤ v ∧ v ≤ 3919) ∨ (3920 ≤ v ∧ v ≤ 3929) ∨ (3930 ≤ v ∧ v ≤ 3939) ∨ (3940 ≤ v ∧ v ≤ 3949) ∨
  v ∈ [421, 423, 425, 7007] ∨ (7030 ≤ v ∧ v ≤ 7039) ∨ v ∈ [8003, 8008] ∨ (91 ≤ v ∧ v ≤ 99) ∨ v ∈ [253, 254]

/-! Tilde escapes. -/

/-- A control escape: `~` and one of the thirty-two characters from `@` to `_` (R273). -/
def isControlLetter (a : Char8) : Bool := 0x40 ≤ a.toNat && a.toNat ≤ 0x5F

/-- The number of a decimal escape: `~` and three digits that make at most 255 (R273). -/
def IsByteCode (a b d : Char8) : Prop :=
  isDigit a = true ∧ isDigit b = true ∧ isDigit d = true ∧ 100 * dval a + 10 * dval b + dval d ≤ 255

/-- An escape of either kind stands at the front of a message. -/
def StartsEscape (msg : List Char8) : Prop :=
  (∃ a rest, msg = tilde :: a :: rest ∧ isControlLetter a = true) ∨
    ∃ a b d rest, msg = tilde :: a :: b :: d :: rest ∧ IsByteCode a b d

/-- The loop of R273 branch by branch, as a relation between a message and its unescaped form; the scan goes on after what
a branch took. -/
inductive Unescapes : List Char8 → List Char8 → Prop
  | done : Unescapes [] []
  | control {a : Char8} {rest out : List Char8} :
      isControlLetter a = true → Unescapes rest out →
      Unescapes (tilde :: a :: rest) (BitVec.ofNat 8 (a.toNat - 0x40) :: out)
  | decimal {a b d : Char8} {rest out : List Char8} :
      IsByteCode a b d → Unescapes rest out →
      Unescapes (tilde :: a :: b :: d :: rest) (BitVec.ofNat 8 (100 * dval a + 10 * dval b + dval d) :: out)
  /-- Any other character, a `~` that begins no escape included, stays. -/
  | literal {c : Char8} {rest out : List Char8} :
      ¬StartsEscape (c :: rest) → Unescapes rest out → Unescapes (c :: rest) (c :: out)

/-! The compactor. -/

/-- A character ISO mode encodes (R292, R296), hence one that no run from NUMERIC, ALPHANUMERIC or ISO fails on. -/
def isoEncodable (d : DcCodes) (c : Char8) : Bool := isDigit c || isSep c || isUpper c || isLower c || d.isIsoPunct c

/-- The look-ahead into NUMERIC, in the words of R295: six digits come, or four or more that reach the end. -/
def DigitsAhead (cs : List Char8) : Prop :=
  (6 ≤ cs.length ∧ ∀ c ∈ cs.take 6, isDigit c = true) ∨ (4 ≤ cs.length ∧ ∀ c ∈ cs, isDigit c = true)

/-- The look-ahead into ALPHANUMERIC (R296): `DC_ISO2ALN_RUN` characters come that ALPHANUMERIC encodes. -/
def AlnAhead (p : Params) (cs : List Char8) : Prop :=
  p.dcIso2AlnRun ≤ cs.length ∧ ∀ c ∈ cs.take p.dcIso2AlnRun, p.dcCodes.isAlnChar c = true

/-- A character of a NUMERIC pair (R294). -/
def isPairChar (c : Char8) : Bool := isDigit c || isSep c

/-- When NUMERIC latches out, in the words after R294's branches: a character that is neither digit nor separator; a digit
or separator followed by such a character; a separator at the end; two separators. -/
def NumLatches (c : Char8) (rest : List Char8) : Prop :=
  isPairChar c = false ∨ (∃ b, rest.head? = some b ∧ isPairChar b = false) ∨
    (isSep c = true ∧ (rest = [] ∨ rest.head? = some Config.sep))

/-- The rules of the compactor (R294 to R297) branch by branch, as a relation: from a mode, the characters up to the end of
the buffer become these bits and leave this mode. It shares the code tables with the machine and none of its steps. -/
inductive Encodes (p : Params) : DcMode → List Char8 → List Bool → DcMode → Prop
  | done (md : DcMode) : Encodes p md [] [] md
  /-- R294: a pair, one of the two may be the separator. -/
  | pair {a b : Char8} {rest : List Char8} {bits : List Bool} {md : DcMode} :
      isPairChar a = true → isPairChar b = true → ¬(isSep a = true ∧ isSep b = true) → Encodes p .num rest bits md →
      Encodes p .num (a :: b :: rest)
        (msbBits ((if isSep a then 10 else dval a) * 11 + (if isSep b then 10 else dval b) + 8) 7 ++ bits) md
  /-- R294: a lone trailing digit with the implicit separator. -/
  | lastDigit {a : Char8} : isDigit a = true → Encodes p .num [a] (msbBits (dval a * 11 + 10 + 8) 7) .num
  /-- R294: the latch to ALPHANUMERIC. -/
  | numToAln {c : Char8} {rest : List Char8} {bits : List Bool} {md : DcMode} :
      NumLatches c rest → Encodes p .aln (c :: rest) bits md →
      Encodes p .num (c :: rest) (codeBits p.dcCodes.numToAln ++ bits) md
  /-- R295, R296: the latch to NUMERIC. -/
  | toNum {m md : DcMode} {c : Char8} {rest : List Char8} {bits : List Bool} :
      m = .aln ∨ m = .iso → DigitsAhead (c :: rest) → Encodes p .num (c :: rest) bits md →
      Encodes p m (c :: rest) (p.dcCodes.toNumBits ++ bits) md
  /-- R296: the latch from ISO to ALPHANUMERIC. -/
  | isoToAln {c : Char8} {rest : List Char8} {bits : List Bool} {md : DcMode} :
      ¬DigitsAhead (c :: rest) → AlnAhead p (c :: rest) → Encodes p .aln (c :: rest) bits md →
      Encodes p .iso (c :: rest) (codeBits p.dcCodes.alnIso ++ bits) md
  /-- R295, R296: a digit; ISO comes to it only when it does not latch. -/
  | digit {m md : DcMode} {c : Char8} {rest : List Char8} {bits : List Bool} :
      m = .aln ∨ (m = .iso ∧ ¬AlnAhead p (c :: rest)) → ¬DigitsAhead (c :: rest) → isDigit c = true →
      Encodes p m rest bits md → Encodes p m (c :: rest) (p.dcCodes.digitBits c ++ bits) md
  /-- R295, R296: the separator, after which the mode is NUMERIC. -/
  | sep {m md : DcMode} {c : Char8} {rest : List Char8} {bits : List Bool} :
      m = .aln ∨ (m = .iso ∧ ¬AlnAhead p (c :: rest)) → isSep c = true → Encodes p .num rest bits md →
      Encodes p m (c :: rest) (codeBits p.dcCodes.sep5 ++ bits) md
  /-- R295: a letter or a punctuation character of ALPHANUMERIC. -/
  | alnChar {c : Char8} {rest : List Char8} {bits : List Bool} {md : DcMode} :
      isDigit c = false → isSep c = false → isUpper c = true ∨ p.dcCodes.isAlnPunct c = true →
      Encodes p .aln rest bits md → Encodes p .aln (c :: rest) (p.dcCodes.alnBits c ++ bits) md
  /-- R295: the latch from ALPHANUMERIC to ISO. -/
  | alnToIso {c : Char8} {rest : List Char8} {bits : List Bool} {md : DcMode} :
      p.dcCodes.isAlnChar c = false → isSep c = false → Encodes p .iso (c :: rest) bits md →
      Encodes p .aln (c :: rest) (codeBits p.dcCodes.alnIso ++ bits) md
  /-- R296: a letter. -/
  | isoLetter {c : Char8} {rest : List Char8} {bits : List Bool} {md : DcMode} :
      ¬AlnAhead p (c :: rest) → isUpper c = true ∨ isLower c = true → Encodes p .iso rest bits md →
      Encodes p .iso (c :: rest) (p.dcCodes.isoLetterBits c ++ bits) md
  /-- R296: a punctuation character of ISO. -/
  | isoPunct {c : Char8} {rest : List Char8} {bits : List Bool} {md : DcMode} :
      ¬AlnAhead p (c :: rest) → isDigit c = false → isSep c = false → isUpper c = false → isLower c = false →
      p.dcCodes.isIsoPunct c = true → Encodes p .iso rest bits md →
      Encodes p .iso (c :: rest) (p.dcCodes.isoPunctBits c ++ bits) md
  /-- R297: a letter of ALPHA-only. -/
  | alpLetter {c : Char8} {rest : List Char8} {bits : List Bool} {md : DcMode} :
      isUpper c = true → Encodes p .alp rest bits md →
      Encodes p .alp (c :: rest) (p.dcCodes.alpLetterBits c ++ bits) md
  /-- R297, R305: a digit of ALPHA-only, its character code plus 4. -/
  | alpDigit {c : Char8} {rest : List Char8} {bits : List Bool} {md : DcMode} :
      isDigit c = true → Encodes p .alp rest bits md → Encodes p .alp (c :: rest) (msbBits (c.toNat + 4) 6 ++ bits) md
  /-- R297: the terminal separator, after which the mode is NUMERIC. -/
  | alpEnd {c : Char8} {rest : List Char8} {bits : List Bool} {md : DcMode} :
      isSep c = true → Encodes p .num rest bits md → Encodes p .alp (c :: rest) (codeBits p.dcCodes.alpEnd ++ bits) md

/-- The NUMERIC code of an even number of digits, pair by pair: `d1 * 11 + d2 + 8` in 7 bits (R294). -/
def numericPairs : List Char8 → List Bool
  | a :: b :: rest => msbBits (dval a * 11 + dval b + 8) 7 ++ numericPairs rest
  | _ => []

end Sys2Proof.Machine
end

