-- ==== Sys2Proof/Certificates/Slice0/Obligations.lean ====
section
/-! DEFINITION. The statements for the provers. Each docstring names the rules of spec/ it formalises, and the log entry
where a clause is the model's choice. Witnesses of the hypotheses stand in Sys2Proof/Tests/Slice0.lean. -/

open Sys2Proof Sys2Proof.Machine

/-! Encoding. -/

/-- R90 to R94: decoding the word of a well-formed command gives the command back, for every operand value. -/
def Obligations.DecodeEncode : Prop :=
  ∀ i : Instr, i.wellFormed = true → decode (encode i) = .ok i

/-- R93: a word that decodes is the one word of its command, and the command is well formed; so no word has two
meanings and no command two words. -/
def Obligations.EncodeDecode : Prop :=
  ∀ (w : Word) (i : Instr), decode w = .ok i → encode i = w ∧ i.wellFormed = true

/-- R93, R94, R95: the words that are commands are exactly those that match a row of the printed table and hold no
reserved field value. -/
def Obligations.DecodeMatchesTable : Prop :=
  ∀ w : Word, (∃ i, decode w = .ok i) ↔
    (∃ r ∈ opcodeRows, w &&& r.2 = r.1) ∧ reservedValue w = false

/-- The example words of R112, R113, R118, R119, R135, R162, R190, R217, R275, R299, R321, R349 decode to the commands of
their examples. -/
def Obligations.DecodeSampleWords : Prop :=
  decode 0x0110011D = .ok (.li 1 0x11D) ∧ decode 0x0220DEAD = .ok (.lui 2 0xDEAD) ∧
  decode 0x09F00000 = .ok (.bput 15 0) ∧ decode 0x0A120000 = .ok (.bget 1 2 0) ∧
  decode 0x12100700 = .ok (.bsApbs 1 7 0) ∧ decode 0x20100000 = .ok (.ckMod10 1 0) ∧
  decode 0x36100010 = .ok (.lnCmp 1 0 1) ∧
  decode 0x40120001 = .ok (.rsInit 1 2 1) ∧ decode 0x54120002 = .ok (.aiGetr 1 2 .dataLoc) ∧
  decode 0x60001001 = .ok (.dcEnc 0 1 0 .num .dbe) ∧ decode 0x61100100 = .ok (.dcTgt 1 0 0 .b) ∧
  decode 0x75120004 = .ok (.srGetm 1 2 4)

/-! The machine. -/

/-- R11, R74, R110: when the host's next move is to issue a word that decodes to `i`, the step is `exec i` on the state
with that move taken off the list. The list is the model's own field (log 1). -/
def Obligations.StepRunsDecodedInstruction : Prop :=
  ∀ (s : State) (w : Word) (rest : List HostMove) (i : Instr),
    s.host = .issue w :: rest → decode w = .ok i → step s = exec i { s with host := rest }

/-- R95, R368, R370: a word that is no command fails with `IllegalCommand`: `ST.code` is 8, bit 8 of `EF` is set, `ECMD`
is the word, and nothing else changes. -/
def Obligations.IllegalWordFails : Prop :=
  ∀ (s : State) (w : Word) (rest : List HostMove) (e : DecodeError),
    s.host = .issue w :: rest → decode w = .error e →
    step s = .next { s with host := rest, st := 8, ef := s.ef ||| 0x100, ecmd := w }

/-- R35, R61, R63, R70, R73: what the host reads. Every listed control register by its number, 0 for the others (the counts
and capacities as far as they fit their registers, which R47 says they do); the numbers and lengths of the spaces; their
elements in index order and nothing beyond; `err` when the code is not 0. -/
def Obligations.HostReads : Prop :=
  ∀ s : State,
    (s.readControl 0 = s.st ∧ s.readControl 1 = s.ef ∧ s.readControl 2 = s.ecmd ∧
      (s.readControl 3).toNat = (match s.dcmode with
        | .num => 0
        | .aln => 1
        | .iso => 2
        | .alp => 3) ∧
      (s.readControl 4).toNat = s.rs.valid.toNat ∧ (s.readControl 5).toNat = s.rs.poly.toNat ∧
      (s.readControl 6).toNat = s.rs.m.toNat ∧ (s.readControl 7).toNat = s.rs.logmod.toNat ∧
      (s.readControl 8).toNat = s.rs.nsym.toNat ∧ (s.readControl 9).toNat = s.rs.idx.toNat ∧
      (s.air.length < 2 ^ 16 → (s.readControl 10).toNat = s.air.length) ∧
      (s.rows.length < 2 ^ 16 → (s.readControl 11).toNat = s.rows.length) ∧
      (∀ b : Ix, (s.getB b).cap < 2 ^ 32 → (s.readControl (12 + b.toNat)).toNat = (s.getB b).cap) ∧
      s.readControl 16 = 0x5A4E4333 ∧ ∀ n, 17 ≤ n → s.readControl n = 0) ∧
    ((∀ k : Ix, Space.ofNumber k.toNat = some (.chars k) ∧ Space.ofNumber (8 + k.toNat) = some (.bits k) ∧
        Space.ofNumber (12 + k.toNat) = some (.cells k)) ∧
      (∀ j : BitVec 1, Space.ofNumber (4 + j.toNat) = some (.syms j)) ∧
      Space.ofNumber 16 = some .rslog ∧ Space.ofNumber 17 = some .rsalog ∧ Space.ofNumber 18 = some .rsgen ∧
      Space.ofNumber 19 = some .rsecc ∧ Space.ofNumber 20 = some .air ∧ Space.ofNumber 21 = some .rows ∧
      ∀ n, n = 6 ∨ n = 7 ∨ 22 ≤ n → Space.ofNumber n = none) ∧
    ((∀ k, s.spaceLen (.chars k) = (s.getC k).length ∧ s.spaceLen (.bits k) = (s.getB k).bits.length ∧
        s.spaceLen (.cells k) = 112) ∧
      (∀ j, s.spaceLen (.syms j) = (s.getS j).length) ∧ s.spaceLen .air = s.air.length ∧
      s.spaceLen .rows = s.rows.length ∧
      (s.rs.valid = false → s.spaceLen .rslog = 0 ∧ s.spaceLen .rsalog = 0 ∧ s.spaceLen .rsgen = 0 ∧
        s.spaceLen .rsecc = 0) ∧
      (s.rs.valid = true → s.rs.Ok s.cfg → s.spaceLen .rslog = 2 ^ s.rs.m.toNat ∧
        s.spaceLen .rsalog = 2 ^ s.rs.m.toNat ∧ s.spaceLen .rsgen = s.rs.nsym.toNat + 1 ∧
        (s.spaceLen .rsecc = 0 ∨ s.spaceLen .rsecc = s.rs.nsym.toNat))) ∧
    ((∀ sp p, s.memRead sp p = none ↔ s.spaceLen sp ≤ p) ∧
      (∀ k p, s.memRead (.chars k) p = ((s.getC k)[p]?).map .char ∧
        s.memRead (.bits k) p = ((s.getB k).bits[p]?).map .bit ∧
        (p < 112 → s.memRead (.cells k) p = some (.bit ((s.getL k).getLsbD p)))) ∧
      (∀ j p, s.memRead (.syms j) p = ((s.getS j)[p]?).map .sym) ∧
      (∀ p, s.memRead .air p = (s.air[p]?).map .record ∧ s.memRead .rows p = (s.rows[p]?).map .row) ∧
      (s.rs.valid = true → ∀ p, s.memRead .rslog p = (s.rs.log[p]?).map .entry ∧
        s.memRead .rsalog p = (s.rs.alog[p]?).map .entry ∧ s.memRead .rsgen p = (s.rs.gen[p]?).map .sym ∧
        s.memRead .rsecc p = (s.rs.ecc[p]?).map .sym)) ∧
    (s.err = true ↔ s.st.toNat % 16 ≠ 0)

/-- R71, R72: what each host write does, and that it changes nothing else. The capacity a bit stream takes is the least
`BS_CAP0 * 2^j` that holds the bits and is not below the capacity before. No move but a command or reset changes `ST`, `EF`,
`ECMD`, the Reed-Solomon unit, the AI records or the parameters. -/
def Obligations.HostPortWrites : Prop :=
  (∀ s : State,
    (∀ r v, ∃ t, hostMove (.writeX r v) s = .next t ∧ t = { s with x := t.x } ∧ t.getX r = v ∧
      ∀ q, q ≠ r → t.getX q = s.getX q) ∧
    (∀ k cs, cs.length ≤ s.cfg.cMax → ∃ t, hostMove (.loadC k cs) s = .next t ∧ t = { s with c := t.c } ∧
      t.getC k = cs ∧ ∀ q, q ≠ k → t.getC q = s.getC q) ∧
    (∀ j vs, vs.length ≤ s.cfg.sMax → ∃ t, hostMove (.loadS j vs) s = .next t ∧ t = { s with sy := t.sy } ∧
      t.getS j = vs ∧ ∀ q, q ≠ j → t.getS q = s.getS q) ∧
    (∀ k i v, i < (s.getC k).length → ∃ t, hostMove (.pokeC k i v) s = .next t ∧ t = { s with c := t.c } ∧
      (t.getC k).length = (s.getC k).length ∧ (t.getC k)[i]? = some v ∧
      (∀ p, p ≠ i → (t.getC k)[p]? = (s.getC k)[p]?) ∧ ∀ q, q ≠ k → t.getC q = s.getC q) ∧
    (∀ j i v, i < (s.getS j).length → ∃ t, hostMove (.pokeS j i v) s = .next t ∧ t = { s with sy := t.sy } ∧
      (t.getS j).length = (s.getS j).length ∧ (t.getS j)[i]? = some v ∧
      (∀ p, p ≠ i → (t.getS j)[p]? = (s.getS j)[p]?) ∧ ∀ q, q ≠ j → t.getS q = s.getS q) ∧
    (∀ r i v, i < 112 → ∃ t, hostMove (.pokeL r i v) s = .next t ∧ t = { s with l := t.l } ∧
      (∀ p, p < 112 → (t.getL r).getLsbD p = if p = i then v else (s.getL r).getLsbD p) ∧
      ∀ q, q ≠ r → t.getL q = s.getL q) ∧
    (∀ b bits j0, s.cfg.Ok → bits.length ≤ s.cfg.bsMaxBits → (s.getB b).cap = s.cfg.bsCap0 * 2 ^ j0 →
      ∃ t, hostMove (.loadB b bits) s = .next t ∧ t = { s with b := t.b } ∧ (t.getB b).bits = bits ∧
        (∀ q, q ≠ b → t.getB q = s.getB q) ∧
        ∃ j, (t.getB b).cap = s.cfg.bsCap0 * 2 ^ j ∧ bits.length ≤ 8 * (t.getB b).cap ∧ j0 ≤ j ∧
          ∀ j', j0 ≤ j' → bits.length ≤ 8 * (s.cfg.bsCap0 * 2 ^ j') → j ≤ j') ∧
    (∀ m, hostMove (.writeMode m) s = .next { s with dcmode := m }) ∧
    (∀ rs, s.rows.length + rs.length ≤ s.cfg.rowMax → (∀ r ∈ rs, r.mods.length ≤ s.cfg.rowLenMax) →
      hostMove (.appendRows rs) s = .next { s with rows := s.rows ++ rs }) ∧
    hostMove .clearRows s = .next { s with rows := [] }) ∧
  ∀ (m : HostMove) (s t : State), (∀ w, m ≠ .issue w) → m ≠ .reset → hostMove m s = .next t →
    t.cfg = s.cfg ∧ t.st = s.st ∧ t.ef = s.ef ∧ t.ecmd = s.ecmd ∧ t.rs = s.rs ∧ t.air = s.air ∧ t.host = s.host

/-- R46, R115, R400, R401: `SRST` completes, the reset input does the same, and every piece of the spec's state has its
reset value; the tables are unreadable and no entry is written. That the parameters stay is the model's choice (log 8,
log 16). -/
def Obligations.ResetValues : Prop :=
  ∀ s : State, ∃ t, exec .srst s = .next t ∧ hostMove .reset s = .next t ∧
    (∀ r, t.getX r = 0) ∧ t.st = 0 ∧ t.ef = 0 ∧ t.ecmd = 0 ∧ t.dcmodeWord = 0 ∧
    (∀ k, t.getC k = []) ∧ (∀ j, t.getS j = []) ∧
    (∀ b, (t.getB b).bits = [] ∧ (t.getB b).cap = s.cfg.bsCap0) ∧ (∀ r, t.getL r = 0) ∧
    (∀ n, 4 ≤ n → n ≤ 11 → t.readControl n = 0) ∧
    (∀ e, some e ∉ t.rs.log ∧ some e ∉ t.rs.alog) ∧
    t.spaceLen .rslog = 0 ∧ t.spaceLen .rsalog = 0 ∧ t.spaceLen .rsgen = 0 ∧ t.rs.ecc = [] ∧
    t.air = [] ∧ t.rows = [] ∧ t.readControl 16 = 0x5A4E4333 ∧ t.cfg = s.cfg

/-- R110, R370, R372: every command ends, with code 0 and `EF` and `ECMD` unchanged but for `CLRERR` and `SRST`, or with
one error kind and no change to anything but the three status registers; so does every word the host issues, and `ECMD`
is then that word. -/
def Obligations.EveryCommandSucceedsOrFailsClosed : Prop :=
  (∀ (i : Instr) (s : State), ∃ t, exec i s = .next t ∧
    ((t.st = 0 ∧ (i ≠ .srst → t.ecmd = s.ecmd) ∧ (i ≠ .srst → i ≠ .clrerr → t.ef = s.ef)) ∨
      ∃ k, FailsWith i s k)) ∧
  ∀ (w : Word) (s : State), ∃ t, hostMove (.issue w) s = .next t ∧
    (t.st = 0 ∨ ∃ k : ErrorKind, t = { s with
      st := k.code.setWidth 32
      ef := s.ef ||| (1#32 <<< k.code.toNat)
      ecmd := w })

/-- R373, R374: no failure is fatal. No list of command words makes ZNCORE stop: as many steps as there are words end in a
next state with the list used up. A command that failed fails the same way when it is issued again, and the state stays as
it is. -/
def Obligations.FailuresAreNotFatal : Prop :=
  (∀ (ws : List Word) (s : State), s.host = ws.map .issue →
    ∃ t : State, Host.Core.run core ws.length s = .next t ∧ t.host = []) ∧
  ∀ (i : Instr) (s t : State), exec i s = .next t → t.st ≠ 0 → exec i t = .next t

/-- R22, R62, R110: no command but `SRST` changes anything outside its footprint, whether it succeeds or fails. -/
def Obligations.CommandsStayWithinFootprint : Prop :=
  ∀ (i : Instr) (s t : State), i ≠ .srst → exec i s = .next t → Within (footprint i) s t

/-- R47: every step from a safe state, a command, a host write or reset, leaves a safe state. The bounds on the capacity are
R131's. -/
def Obligations.StateOkKept : Prop :=
  ∀ s t : State, StateOk s → step s = .next t → StateOk t

/-- R25, R26, R370: every step keeps `ST` a code of R360, the reserved bits of `EF` zero, and the bit of the current code
set in `EF`. -/
def Obligations.StatusOkKept : Prop :=
  ∀ s t : State, StatusOk s → step s = .next t → StatusOk t

/-- R222: under possible parameters (log 28, a part of `StateOk`, which `StateOkKept` keeps) every step keeps the
Reed-Solomon tables what `RS.INIT` builds from the triple in the configuration registers. -/
def Obligations.RsTablesStayBuilt : Prop :=
  ∀ s t : State, s.cfg.Ok → RsBuilt s → step s = .next t → RsBuilt t

/-- R46: the three invariants hold at reset, whatever the parameters (log 8, log 28). -/
def Obligations.InvariantsAtReset : Prop :=
  ∀ p : Params, p.Ok →
    StateOk (State.resetWith p) ∧ StatusOk (State.resetWith p) ∧ RsBuilt (State.resetWith p)

/-- R8, with R165, R302 to R306 and R346: the default parameters of `State.reset`, and the codes the default `DC_CODES` give
each alphabet. The values of C39SET, of the codes and of the four-state map are from general knowledge (log 9). -/
def Obligations.DefaultParameters : Prop :=
  let p := State.reset.cfg
  let d := p.dcCodes
  State.reset = State.resetWith p ∧ p.Ok ∧
  (p.cMax = 4096 ∧ p.sMax = 4096 ∧ p.bsCap0 = 32 ∧ p.bsMaxBits = 65536 ∧ p.lnLoadClears = true ∧ p.rsMMax = 12 ∧
    p.rsNsymMax = 1024 ∧ p.aiMax = 100 ∧ p.aiUnknownReject = false ∧ p.dcIso2AlnRun = 5 ∧ p.rowMax = 128 ∧
    p.rowLenMax = 4096) ∧
  (p.c39set.length = 43 ∧ (∀ v : Fin 10, p.c39set[v.val]? = some (BitVec.ofNat 8 (0x30 + v.val))) ∧
    (∀ v : Fin 26, p.c39set[10 + v.val]? = some (BitVec.ofNat 8 (0x41 + v.val))) ∧
    p.c39set.drop 36 = [0x2D, 0x2E, 0x20, 0x24, 0x2F, 0x2B, 0x25]) ∧
  (codeBits d.numToAln = [false, false, false, false] ∧ d.toNumBits = [false, false, false] ∧
    codeBits d.alnIso = [false, false, true, false, false] ∧ codeBits d.sep5 = [false, true, true, true, true] ∧
    codeBits d.alpEnd = [true, true, true, true, true]) ∧
  (∀ c : Char8,
    (isDigit c = true → d.digitBits c = msbBits (c.toNat - 43) 5) ∧
    (isUpper c = true → d.alnBits c = msbBits (c.toNat - 33) 6 ∧ d.isoLetterBits c = msbBits (c.toNat - 1) 7 ∧
      d.alpLetterBits c = msbBits (c.toNat - 65) 5) ∧
    (isLower c = true → d.isoLetterBits c = msbBits (c.toNat - 7) 7) ∧
    (d.isAlnPunct c = true ↔ c = 0x2A ∨ (0x2C ≤ c.toNat ∧ c.toNat ≤ 0x2F)) ∧
    (d.isAlnPunct c = true → d.alnBits c = msbBits (if c = 0x2A then 58 else c.toNat + 15) 6) ∧
    (d.isIsoPunct c = true ↔ (0x20 ≤ c.toNat ∧ c.toNat ≤ 0x22) ∨ (0x25 ≤ c.toNat ∧ c.toNat ≤ 0x2F) ∨
      (0x3A ≤ c.toNat ∧ c.toNat ≤ 0x3F) ∨ c = 0x5F) ∧
    (d.isIsoPunct c = true → d.isoPunctBits c = msbBits
      (if c = 0x20 then 252 else if c = 0x5F then 251 else if c.toNat ≤ 0x22 then c.toNat + 199
       else if c.toNat ≤ 0x2F then c.toNat + 197 else c.toNat + 187) 8)) ∧
  (fourState p.fourstateMap 0x30 = some (true, true, true) ∧ fourState p.fourstateMap 0x31 = some (true, true, false) ∧
    fourState p.fourstateMap 0x32 = some (false, true, true) ∧
    fourState p.fourstateMap 0x33 = some (false, true, false))

/-! SYS and BUF. -/

/-- R111 to R114: `NOP`, `LI`, `LUI` and `CLRERR` complete in every state. -/
def Obligations.SysCommandResults : Prop :=
  ∀ (s : State) (ra : RegNum) (imm16 : BitVec 16),
    (∃ t, exec .nop s = .next t ∧ OnlyStatus s t) ∧
    (∃ t, exec (.li ra imm16) s = .next t ∧ (t.getX ra).toNat = imm16.toNat ∧ OnlyX s t ra) ∧
    (∃ t, exec (.lui ra imm16) s = .next t ∧
      (t.getX ra).toNat = imm16.toNat * 2 ^ 16 + (s.getX ra).toNat % 2 ^ 16 ∧ OnlyX s t ra) ∧
    exec .clrerr s = .next { s with st := 0, ef := 0 }

/-- R118: `BPUT` of a value that fits appends it to a buffer that is not full. -/
def Obligations.BufferPut : Prop :=
  ∀ (s : State) (ra : RegNum) (sp : BitVec 3),
    (∀ k : Ix, sp.toNat = k.toNat → (s.getX ra).toNat < 2 ^ 8 → (s.getC k).length < s.cfg.cMax →
      ∃ t, exec (.bput ra sp) s = .next t ∧ OnlyC s t k ∧
        ∃ v, v.toNat = (s.getX ra).toNat ∧ t.getC k = s.getC k ++ [v]) ∧
    (∀ j : BitVec 1, sp.toNat = 4 + j.toNat → (s.getX ra).toNat < 2 ^ 16 → (s.getS j).length < s.cfg.sMax →
      ∃ t, exec (.bput ra sp) s = .next t ∧ OnlyS s t j ∧
        ∃ v, v.toNat = (s.getX ra).toNat ∧ t.getS j = s.getS j ++ [v])

/-- R117, R119, R120: `BCLR`, `BGET` of an existing element, `BLEN`. The length bound is R47's, and the
parameters are possible ones (log 28). -/
def Obligations.BufferReadAndClear : Prop :=
  ∀ (s : State) (ra rb : RegNum) (sp : BitVec 3),
    (∀ k : Ix, sp.toNat = k.toNat →
      (∃ t, exec (.bclr sp) s = .next t ∧ t.getC k = [] ∧ OnlyC s t k) ∧
      (∀ v, (s.getC k)[(s.getX rb).toNat]? = some v →
        ∃ t, exec (.bget ra rb sp) s = .next t ∧ (t.getX ra).toNat = v.toNat ∧ OnlyX s t ra) ∧
      (s.cfg.Ok → (s.getC k).length ≤ s.cfg.cMax →
        ∃ t, exec (.blen ra sp) s = .next t ∧ (t.getX ra).toNat = (s.getC k).length ∧ OnlyX s t ra)) ∧
    (∀ j : BitVec 1, sp.toNat = 4 + j.toNat →
      (∃ t, exec (.bclr sp) s = .next t ∧ t.getS j = [] ∧ OnlyS s t j) ∧
      (∀ v, (s.getS j)[(s.getX rb).toNat]? = some v →
        ∃ t, exec (.bget ra rb sp) s = .next t ∧ (t.getX ra).toNat = v.toNat ∧ OnlyX s t ra) ∧
      (s.cfg.Ok → (s.getS j).length ≤ s.cfg.sMax →
        ∃ t, exec (.blen ra sp) s = .next t ∧ (t.getX ra).toNat = (s.getS j).length ∧ OnlyX s t ra))

/-- R116, R118, R119, R371: the error kinds of the BUF commands, in the order of their tests. A term with a reserved
selector fails as the illegal word it is (log 5). -/
def Obligations.BufferErrors : Prop :=
  ∀ (s : State) (ra rb : RegNum) (sp : BitVec 3),
    (∀ k : Ix, sp.toNat = k.toNat →
      (2 ^ 8 ≤ (s.getX ra).toNat → FailsWith (.bput ra sp) s .outOfRange) ∧
      ((s.getX ra).toNat < 2 ^ 8 → (s.getC k).length = s.cfg.cMax → FailsWith (.bput ra sp) s .lengthExceeded) ∧
      ((s.getC k).length ≤ (s.getX rb).toNat → FailsWith (.bget ra rb sp) s .outOfRange)) ∧
    (∀ j : BitVec 1, sp.toNat = 4 + j.toNat →
      (2 ^ 16 ≤ (s.getX ra).toNat → FailsWith (.bput ra sp) s .outOfRange) ∧
      ((s.getX ra).toNat < 2 ^ 16 → (s.getS j).length = s.cfg.sMax → FailsWith (.bput ra sp) s .lengthExceeded) ∧
      ((s.getS j).length ≤ (s.getX rb).toNat → FailsWith (.bget ra rb sp) s .outOfRange)) ∧
    (6 ≤ sp.toNat → FailsWith (.bput ra sp) s .illegalCommand ∧ FailsWith (.bclr sp) s .illegalCommand ∧
      FailsWith (.bget ra rb sp) s .illegalCommand ∧ FailsWith (.blen ra sp) s .illegalCommand)

/-! BS. -/

/-- R151 (with R134 and R135): bits appended most significant first read back as the low `n` bits of the value; the bits
before them stay. -/
def Obligations.AppendedBitsReadBack : Prop :=
  ∀ (s : State) (ra : RegNum) (n6 : BitVec 6) (b : Ix),
    ((s.getB b).bits.length < s.cfg.bsMaxBits →
      ∃ t, exec (.bsApb ra b) s = .next t ∧ OnlyB s t b ∧
        (t.getB b).bits = (s.getB b).bits ++ [(s.getX ra).getLsbD 0]) ∧
    (n6.toNat ≤ 32 → (s.getB b).bits.length + n6.toNat ≤ s.cfg.bsMaxBits →
      ∃ t, exec (.bsApbs ra n6 b) s = .next t ∧ OnlyB s t b ∧
        (t.getB b).bits.length = (s.getB b).bits.length + n6.toNat ∧
        (∀ p, p < (s.getB b).bits.length → (t.getB b).bits[p]? = (s.getB b).bits[p]?) ∧
        ∀ p, p < n6.toNat →
          (t.getB b).bits[(s.getB b).bits.length + p]? = some ((s.getX ra).getLsbD (n6.toNat - 1 - p)))

/-- R136, R137: `BS.INS` puts the bit at its index and moves every bit from there on up by one; `BS.REM` takes a range out,
moves the bits above it down, and keeps the capacity. -/
def Obligations.InsertAndRemoveShift : Prop :=
  ∀ (s : State) (ra rb : RegNum) (b : Ix), (s.getX ra).toNat < (s.getB b).bits.length →
    ((s.getB b).bits.length < s.cfg.bsMaxBits →
      ∃ t, exec (.bsIns ra rb b) s = .next t ∧ OnlyB s t b ∧
        (t.getB b).bits.length = (s.getB b).bits.length + 1 ∧
        (t.getB b).bits[(s.getX ra).toNat]? = some ((s.getX rb).getLsbD 0) ∧
        (∀ p, p < (s.getX ra).toNat → (t.getB b).bits[p]? = (s.getB b).bits[p]?) ∧
        ∀ p, (s.getX ra).toNat ≤ p → (t.getB b).bits[p + 1]? = (s.getB b).bits[p]?) ∧
    ((s.getX ra).toNat + (s.getX rb).toNat ≤ (s.getB b).bits.length →
      ∃ t, exec (.bsRem ra rb b) s = .next t ∧ OnlyB s t b ∧ (t.getB b).cap = (s.getB b).cap ∧
        (t.getB b).bits.length + (s.getX rb).toNat = (s.getB b).bits.length ∧
        (∀ p, p < (s.getX ra).toNat → (t.getB b).bits[p]? = (s.getB b).bits[p]?) ∧
        ∀ p, (s.getX ra).toNat ≤ p → (t.getB b).bits[p]? = (s.getB b).bits[p + (s.getX rb).toNat]?)

/-- R138, R139, R140: `BS.XOR` of streams of one length is bit by bit, into the first, and a stream with itself gives
zeros; indexed get and set reach every bit below the size and touch no other. -/
def Obligations.XorGetAndSetBits : Prop :=
  ∀ (s : State) (ra rb : RegNum) (b b2 : Ix),
    ((s.getB b).bits.length = (s.getB b2).bits.length →
      ∃ t, exec (.bsXor b b2) s = .next t ∧ OnlyB s t b ∧ (t.getB b).cap = (s.getB b).cap ∧
        (t.getB b).bits.length = (s.getB b).bits.length ∧
        (∀ (p : Nat) (u v : Bool), (s.getB b).bits[p]? = some u → (s.getB b2).bits[p]? = some v →
          (t.getB b).bits[p]? = some (u ^^ v)) ∧
        (b = b2 → ∀ u ∈ (t.getB b).bits, u = false)) ∧
    (∀ v, (s.getB b).bits[(s.getX rb).toNat]? = some v →
      ∃ t, exec (.bsGet ra rb b) s = .next t ∧ (t.getX ra).toNat = v.toNat ∧ OnlyX s t ra) ∧
    ((s.getX ra).toNat < (s.getB b).bits.length →
      ∃ t, exec (.bsSet ra rb b) s = .next t ∧ OnlyB s t b ∧ (t.getB b).cap = (s.getB b).cap ∧
        (t.getB b).bits.length = (s.getB b).bits.length ∧
        (t.getB b).bits[(s.getX ra).toNat]? = some ((s.getX rb).getLsbD 0) ∧
        ∀ p, p ≠ (s.getX ra).toNat → (t.getB b).bits[p]? = (s.getB b).bits[p]?)

/-- R152 (with R150): after `BS.TOB` every bit of the stream stands in its byte, most significant first, and the bits
beyond the size in the final byte are 0. -/
def Obligations.ToBytesRoundTrip : Prop :=
  ∀ (s : State) (b k : Ix), (s.getB b).bits.length ≤ 8 * s.cfg.cMax →
    ∃ t, exec (.bsTob b k) s = .next t ∧ OnlyC s t k ∧
      8 * (t.getC k).length < (s.getB b).bits.length + 8 ∧ (s.getB b).bits.length ≤ 8 * (t.getC k).length ∧
      (∀ p v, (s.getB b).bits[p]? = some v →
        ∃ y, (t.getC k)[p / 8]? = some y ∧ y.getLsbD (7 - p % 8) = v) ∧
      (∀ p y, (s.getB b).bits.length ≤ p → (t.getC k)[p / 8]? = some y → y.getLsbD (7 - p % 8) = false)

/-- R133, R141, R142: `BS.CLR`, `BS.SIZE`, `BS.SIZEB`. The size bound is R47's, and the
parameters are possible ones (log 28). -/
def Obligations.StreamSizes : Prop :=
  ∀ (s : State) (ra : RegNum) (b : Ix),
    (∃ t, exec (.bsClr b) s = .next t ∧ OnlyB s t b ∧ (t.getB b).bits = [] ∧ (t.getB b).cap = s.cfg.bsCap0) ∧
    (s.cfg.Ok → (s.getB b).bits.length ≤ s.cfg.bsMaxBits →
      (∃ t, exec (.bsSize ra b) s = .next t ∧ (t.getX ra).toNat = (s.getB b).bits.length ∧ OnlyX s t ra) ∧
      (∃ t, exec (.bsSizeb ra b) s = .next t ∧ (t.getX ra).toNat = ((s.getB b).bits.length + 7) / 8 ∧
        OnlyX s t ra))

/-- R131: a stream that a command enlarges doubles its capacity as often as it must and no oftener. -/
def Obligations.CapacityDoubles : Prop :=
  ∀ (s t : State) (i : Instr) (b : Ix), StateOk s → i ≠ .srst → (∀ b', i ≠ .bsClr b') → exec i s = .next t →
    ∃ j, (t.getB b).cap = (s.getB b).cap * 2 ^ j ∧ (t.getB b).bits.length ≤ 8 * (t.getB b).cap ∧
      ∀ j', (t.getB b).bits.length ≤ 8 * ((s.getB b).cap * 2 ^ j') → j ≤ j'

/-- R131, R132, R135 to R140, R150, R371: the error kinds of the BS commands. -/
def Obligations.BitStreamErrors : Prop :=
  ∀ (s : State) (ra rb : RegNum) (n6 : BitVec 6) (b b2 k : Ix),
    ((s.getB b).bits.length = s.cfg.bsMaxBits → FailsWith (.bsApb ra b) s .lengthExceeded) ∧
    (32 < n6.toNat → FailsWith (.bsApbs ra n6 b) s .outOfRange) ∧
    (n6.toNat ≤ 32 → s.cfg.bsMaxBits < (s.getB b).bits.length + n6.toNat →
      FailsWith (.bsApbs ra n6 b) s .lengthExceeded) ∧
    ((s.getB b).bits.length ≤ (s.getX ra).toNat →
      FailsWith (.bsIns ra rb b) s .outOfRange ∧ FailsWith (.bsRem ra rb b) s .outOfRange ∧
      FailsWith (.bsSet ra rb b) s .outOfRange) ∧
    ((s.getX ra).toNat < (s.getB b).bits.length → (s.getB b).bits.length = s.cfg.bsMaxBits →
      FailsWith (.bsIns ra rb b) s .lengthExceeded) ∧
    ((s.getB b).bits.length < (s.getX ra).toNat + (s.getX rb).toNat → FailsWith (.bsRem ra rb b) s .outOfRange) ∧
    ((s.getB b).bits.length ≤ (s.getX rb).toNat → FailsWith (.bsGet ra rb b) s .outOfRange) ∧
    ((s.getB b).bits.length ≠ (s.getB b2).bits.length → FailsWith (.bsXor b b2) s .sizeMismatch) ∧
    (8 * s.cfg.cMax < (s.getB b).bits.length → FailsWith (.bsTob b k) s .lengthExceeded)

/-! CK. -/

/-- R167 (with R162): the Mod10 digit is a digit, and with it at weight 1 and the data at weights 3, 1, 3, … from the right
the whole is a multiple of 10. -/
def Obligations.Mod10CheckDigit : Prop :=
  ∀ (s : State) (ra : RegNum) (k : Ix), (∀ c ∈ s.getC k, isDigit c = true) →
    ∃ t, exec (.ckMod10 ra k) s = .next t ∧ OnlyX s t ra ∧
      0x30 ≤ (t.getX ra).toNat ∧ (t.getX ra).toNat ≤ 0x39 ∧
      10 ∣ ((List.range (s.getC k).length).map fun j =>
          dval ((s.getC k).getD ((s.getC k).length - 1 - j) 0) * (if j % 2 = 0 then 3 else 1)).sum +
        ((t.getX ra).toNat - 0x30)

/-- R163, R166: the Mod11 and one-pass check characters of a digit string, the sums written out from the left. -/
def Obligations.Mod11AndOpccCharacters : Prop :=
  ∀ (s : State) (ra : RegNum) (k : Ix), (∀ c ∈ s.getC k, isDigit c = true) →
    (∃ t, exec (.ckMod11 ra k) s = .next t ∧ OnlyX s t ra ∧
      ∃ r, r < 11 ∧ (t.getX ra).toNat = (if r = 10 then 0x58 else 0x30 + r) ∧
        ((List.range (s.getC k).length).map fun j => dval ((s.getC k).getD j 0) * (j + 1)).sum % 11 = r) ∧
    (∃ t, exec (.ckOpcc ra k) s = .next t ∧ OnlyX s t ra ∧
      ∃ d, d < 10 ∧ (t.getX ra).toNat = 0x30 + d ∧
        10 ∣ ((List.range (s.getC k).length).map fun j =>
          let p := dval ((s.getC k).getD j 0) * (if j % 2 = 0 then 2 else 1)
          p / 10 + p % 10).sum + d)

/-- R164, for any 43 characters `C39SET` (R165, log 8): the Mod43 character stands in the set at the sum of the indices mod
43; no order of the input matters. -/
def Obligations.Mod43Character : Prop :=
  ∀ (s : State) (ra : RegNum) (k : Ix), s.cfg.c39set.length = 43 → (∀ c ∈ s.getC k, c ∈ s.cfg.c39set) →
    ∃ t, exec (.ckMod43 ra k) s = .next t ∧ OnlyX s t ra ∧
      (∃ v, s.cfg.c39set[((s.getC k).map fun c => s.cfg.c39set.idxOf c).sum % 43]? = some v ∧
        (t.getX ra).toNat = v.toNat) ∧
      ∀ s', s'.cfg = s.cfg → (s'.getC k).Perm (s.getC k) →
        ∃ t', exec (.ckMod43 ra k) s' = .next t' ∧ t'.getX ra = t.getX ra

/-- R161, R191 to R194: a character outside the permitted set fails every check command with `InvalidCharacter` and the
decimal commands of LN with `InvalidInput`; a cell index at or above 112 is `OutOfRange`. -/
def Obligations.CheckAndNumberErrors : Prop :=
  ∀ (s : State) (ra rb : RegNum) (k la : Ix),
    ((∃ c ∈ s.getC k, isDigit c = false) →
      FailsWith (.ckMod10 ra k) s .invalidCharacter ∧ FailsWith (.ckMod11 ra k) s .invalidCharacter ∧
      FailsWith (.ckOpcc ra k) s .invalidCharacter ∧
      FailsWith (.lnLdec la k) s .invalidInput ∧ FailsWith (.lnMul la k) s .invalidInput) ∧
    ((∃ c ∈ s.getC k, c ∉ s.cfg.c39set) → FailsWith (.ckMod43 ra k) s .invalidCharacter) ∧
    (112 ≤ (s.getX rb).toNat →
      FailsWith (.lnGetb ra rb la) s .outOfRange ∧ FailsWith (.lnSetb ra rb la) s .outOfRange)

/-! LN. -/

/-- R195 (with R186, R187): addition and subtraction modulo `2^112`; adding a register and then subtracting the same one
restores the value, also when the addition wrapped; a register compared with itself is not larger. -/
def Obligations.AddThenSubtractRestores : Prop :=
  ∀ (s : State) (ra : RegNum) (la lb : Ix),
    ∃ t u, exec (.lnAdd la lb) s = .next t ∧ OnlyL s t la ∧
      (t.getL la).toNat = ((s.getL la).toNat + (s.getL lb).toNat) % 2 ^ 112 ∧
      exec (.lnSub la lb) s = .next u ∧ OnlyL s u la ∧
      (u.getL la).toNat = ((s.getL la).toNat + 2 ^ 112 - (s.getL lb).toNat) % 2 ^ 112 ∧
      (la ≠ lb → ∃ v, exec (.lnSub la lb) t = .next v ∧ v.getL la = s.getL la) ∧
      ∃ w, exec (.lnCmp ra la la) s = .next w ∧ w.getX ra = 0

/-- R184, R187: the ripple of the cells is addition modulo `2^112`, and inverting, adding and adding one is
subtraction. -/
def Obligations.CellAdderIsAddition : Prop :=
  ∀ a b : Large, ∀ cin : Bool,
    (add112 a b cin).toNat = (a.toNat + b.toNat + cin.toNat) % 2 ^ 112 ∧ sub112 a b = a - b ∧
      sub112 a b = add112 a (~~~b) true

/-- R185, R188, R189, R193, R194: clear, shifts by one cell, and single cells. -/
def Obligations.CellCommands : Prop :=
  ∀ (s : State) (ra rb : RegNum) (la : Ix),
    (∃ t, exec (.lnClr la) s = .next t ∧ OnlyL s t la ∧ ∀ p, (t.getL la).getLsbD p = false) ∧
    (∃ t, exec (.lnShu la) s = .next t ∧ OnlyL s t la ∧ (t.getL la).getLsbD 0 = false ∧
      (∀ p, p < 111 → (t.getL la).getLsbD (p + 1) = (s.getL la).getLsbD p) ∧
      (t.getL la).toNat = 2 * (s.getL la).toNat % 2 ^ 112) ∧
    (∃ t, exec (.lnShd la) s = .next t ∧ OnlyL s t la ∧ (t.getL la).getLsbD 111 = false ∧
      (∀ p, p < 111 → (t.getL la).getLsbD p = (s.getL la).getLsbD (p + 1)) ∧
      (t.getL la).toNat = (s.getL la).toNat / 2) ∧
    ((s.getX rb).toNat < 112 →
      (∃ t, exec (.lnGetb ra rb la) s = .next t ∧ OnlyX s t ra ∧
        (t.getX ra).toNat = ((s.getL la).getLsbD (s.getX rb).toNat).toNat) ∧
      (∃ t, exec (.lnSetb ra rb la) s = .next t ∧ OnlyL s t la ∧
        ∀ p, p < 112 → (t.getL la).getLsbD p =
          if p = (s.getX rb).toNat then (s.getX ra).getLsbD 0 else (s.getL la).getLsbD p))

/-- R190, R195: the comparison answers 1 exactly when the first register is larger on cells 103 to 0, as the scan from
cell 103 down finds it; a register is not larger than itself. -/
def Obligations.CompareScansDown : Prop :=
  ∀ (s : State) (ra : RegNum) (la lb : Ix),
    ∃ t, exec (.lnCmp ra la lb) s = .next t ∧ OnlyX s t ra ∧
      (t.getX ra).toNat = (scanCompare (s.getL la) (s.getL lb) 104).toNat ∧
      ((t.getX ra).toNat = 1 ↔ (s.getL lb).toNat % 2 ^ 104 < (s.getL la).toNat % 2 ^ 104) ∧
      (s.getL la = s.getL lb → t.getX ra = 0)

/-- R191, R192: a digit string loads its decimal number modulo `2^112`, as the repeated additions on cells do; with
`LN_LOAD_CLEARS` false (log 8) the old value comes in front of its digits. The product is with the low 102 cells of that
number, modulo `2^112`, as the shift-and-add loop computes it, whatever `LN_LOAD_CLEARS` says. -/
def Obligations.DecimalLoadAndMultiply : Prop :=
  ∀ (s : State) (la k : Ix), (∀ c ∈ s.getC k, isDigit c = true) →
    (∃ t, exec (.lnLdec la k) s = .next t ∧ OnlyL s t la ∧
      (t.getL la).toNat = ((if s.cfg.lnLoadClears then 0 else (s.getL la).toNat * 10 ^ (s.getC k).length) +
        Nat.ofDigits 10 ((s.getC k).reverse.map dval)) % 2 ^ 112 ∧
      t.getL la = loadCells (if s.cfg.lnLoadClears then 0 else s.getL la) (s.getC k)) ∧
    (∃ t, exec (.lnMul la k) s = .next t ∧ OnlyL s t la ∧
      (t.getL la).toNat = (s.getL la).toNat *
        (Nat.ofDigits 10 ((s.getC k).reverse.map dval) % 2 ^ 112 % 2 ^ 102) % 2 ^ 112 ∧
      t.getL la = mul112 (s.getL la) (loadCells 0 (s.getC k)))

/-! RS. -/

/-- R211 to R217: with operands in range and a polynomial whose tables are complete (R216: a primitive one), `RS.INIT`
succeeds; it sets the configuration registers, empties the check symbols, and leaves a monic generator of degree `nsym`
whose constant term is the power `nsym * index + nsym * (nsym - 1) / 2`. With one symbol the generator is `x` plus the power
`index`; with one symbol more it is the generator times `x` plus the power `index + nsym`, coefficient by coefficient. -/
def Obligations.InitBuildsGenerator : Prop :=
  ∀ (s : State) (ra rb : RegNum) (imm16 : BitVec 16) (m : Nat), s.cfg.Ok →
    2 ^ m ≤ (s.getX ra).toNat → (s.getX ra).toNat < 2 ^ (m + 1) → 1 ≤ m → m ≤ s.cfg.rsMMax →
    1 ≤ (s.getX rb).toNat → (s.getX rb).toNat ≤ s.cfg.rsNsymMax → (tablesOf (s.getX ra)).Complete m →
    ∃ t, exec (.rsInit ra rb imm16) s = .next t ∧ t = { s with rs := t.rs, st := 0 } ∧
      t.rs.valid = true ∧ t.rs.poly.toNat = (s.getX ra).toNat ∧ t.rs.m.toNat = m ∧
      t.rs.logmod.toNat = 2 ^ m - 1 ∧ t.rs.nsym.toNat = (s.getX rb).toNat ∧ t.rs.idx = imm16 ∧
      t.rs.log = (tablesOf (s.getX ra)).log ∧ t.rs.alog = (tablesOf (s.getX ra)).alog ∧ t.rs.ecc = [] ∧
      t.rs.gen.length = (s.getX rb).toNat + 1 ∧ t.rs.gen[(s.getX rb).toNat]? = some 1 ∧
      t.rs.gen[0]? = t.rs.tables.expOf
        ((s.getX rb).toNat * imm16.toNat + (s.getX rb).toNat * ((s.getX rb).toNat - 1) / 2) ∧
      ((s.getX rb).toNat = 1 → ∃ a, t.rs.tables.expOf imm16.toNat = some a ∧ t.rs.gen = [a, 1]) ∧
      ∀ (rb' : RegNum) (t' : State), (s.getX rb').toNat = (s.getX rb).toNat + 1 →
        (s.getX rb').toNat ≤ s.cfg.rsNsymMax → exec (.rsInit ra rb' imm16) s = .next t' →
        ∃ a, t.rs.tables.expOf (imm16.toNat + (s.getX rb).toNat) = some a ∧
          ∀ k, k ≤ (s.getX rb').toNat → ∃ v, t.rs.tables.gfmul (t.rs.gen.getD k 0) a = some v ∧
            t'.rs.gen[k]? = some (v ^^^ if k = 0 then 0 else t.rs.gen.getD (k - 1) 0)

/-- R213, R216: the walk writes every power below `logmod`, the first is 1, each next one is the last times `x` reduced by the
polynomial, and all stay below `2^m`. The log table holds at each power its last place among them and is unwritten
elsewhere; the last anti-log entry is unwritten. When the tables are complete the place is the only one: `rs.log` of
`rs.alog[v]` is `v`. -/
def Obligations.TableWalkPowers : Prop :=
  ∀ (poly : Word) (m : Nat), 2 ^ m ≤ poly.toNat → poly.toNat < 2 ^ (m + 1) → 1 ≤ m → m ≤ 16 →
    (tablesOf poly).logmod = 2 ^ m - 1 ∧ (tablesOf poly).log.length = 2 ^ m ∧ (tablesOf poly).alog.length = 2 ^ m ∧
    (tablesOf poly).alog[0]? = some (some 1) ∧ (tablesOf poly).alog[2 ^ m - 1]? = some none ∧
    (∀ v, v + 1 < 2 ^ m - 1 → ∃ p q : Sym, (tablesOf poly).alog[v]? = some (some p) ∧
      (tablesOf poly).alog[v + 1]? = some (some q) ∧ p.toNat < 2 ^ m ∧ q.toNat < 2 ^ m ∧
      q.toNat = if 2 * p.toNat < 2 ^ m then 2 * p.toNat else (2 * p.toNat) ^^^ poly.toNat) ∧
    (∀ (v : Nat) (p : Sym), v < 2 ^ m - 1 → (tablesOf poly).alog[v]? = some (some p) →
      ∃ w : Sym, (tablesOf poly).log[p.toNat]? = some (some w) ∧ v ≤ w.toNat ∧
        (tablesOf poly).alog[w.toNat]? = some (some p)) ∧
    (∀ a : Sym, a.toNat < 2 ^ m → (∀ v, v < 2 ^ m - 1 → (tablesOf poly).alog[v]? ≠ some (some a)) →
      (tablesOf poly).log[a.toNat]? = some none) ∧
    ((tablesOf poly).Complete m → ∀ (v : Nat) (p : Sym), v < 2 ^ m - 1 →
      (tablesOf poly).alog[v]? = some (some p) → (tablesOf poly).log[p.toNat]? = some (some (BitVec.ofNat 16 v)))

/-- R221: with any accepted configuration, an all-zero input gives an all-zero check register of `RSNSYM` cells, narrow and
wide. -/
def Obligations.ZeroDataZeroCheck : Prop :=
  ∀ (s : State) (k : Ix) (j : BitVec 1), s.rs.Ok s.cfg → s.rs.valid = true →
    (s.rs.m.toNat ≤ 8 → (∀ c ∈ s.getC k, c = 0) →
      ∃ t, exec (.rsEncn k) s = .next t ∧
        t = { s with rs := { s.rs with ecc := List.replicate s.rs.nsym.toNat 0 }, st := 0 }) ∧
    ((∀ c ∈ s.getS j, c = 0) →
      ∃ t, exec (.rsEncw j) s = .next t ∧
        t = { s with rs := { s.rs with ecc := List.replicate s.rs.nsym.toNat 0 }, st := 0 })

/-- R219, R220, R227: with complete tables every data sequence of field elements encodes; the check symbols are field
elements, `RSNSYM` of them, and read from the highest power down they are the remainder of dividing the data followed by
`RSNSYM` zeros by the generator. -/
def Obligations.EncodeIsRemainder : Prop :=
  ∀ (s : State) (k : Ix) (j : BitVec 1), s.rs.Ok s.cfg → s.rs.valid = true → s.rs.tables.Complete s.rs.m.toNat →
    (∀ g ∈ s.rs.gen, g.toNat < 2 ^ s.rs.m.toNat) →
    (s.rs.m.toNat ≤ 8 → (∀ c ∈ s.getC k, c.toNat < 2 ^ s.rs.m.toNat) →
      ∃ t, exec (.rsEncn k) s = .next t ∧ t = { s with rs := { s.rs with ecc := t.rs.ecc }, st := 0 } ∧
        t.rs.ecc.length = s.rs.nsym.toNat ∧ (∀ v ∈ t.rs.ecc, v.toNat < 2 ^ s.rs.m.toNat) ∧
        longDivide s.rs.tables (s.rs.gen.take s.rs.nsym.toNat).reverse (s.getC k).length
          ((s.getC k).map (BitVec.setWidth 16) ++ List.replicate s.rs.nsym.toNat 0) = some t.rs.ecc.reverse) ∧
    ((∀ c ∈ s.getS j, c.toNat < 2 ^ s.rs.m.toNat) →
      ∃ t, exec (.rsEncw j) s = .next t ∧ t = { s with rs := { s.rs with ecc := t.rs.ecc }, st := 0 } ∧
        t.rs.ecc.length = s.rs.nsym.toNat ∧ (∀ v ∈ t.rs.ecc, v.toNat < 2 ^ s.rs.m.toNat) ∧
        longDivide s.rs.tables (s.rs.gen.take s.rs.nsym.toNat).reverse (s.getS j).length
          (s.getS j ++ List.replicate s.rs.nsym.toNat 0) = some t.rs.ecc.reverse)

/-- R229: on the same symbol values, in a field of at most 256 elements, the narrow and the wide encoder leave the same
state, or fail with the same kind. -/
def Obligations.NarrowAndWideAgree : Prop :=
  ∀ (s t u : State) (k : Ix) (j : BitVec 1), s.rs.m.toNat ≤ 8 → s.getS j = (s.getC k).map (BitVec.setWidth 16) →
    exec (.rsEncn k) s = .next t → exec (.rsEncw j) s = .next u →
    t.st = u.st ∧ t.ef = u.ef ∧ t.rs = u.rs ∧ (t.st = 0 → t = u)

/-- R223 to R226: reading check symbols, generator coefficients and written table entries. -/
def Obligations.ReedSolomonReads : Prop :=
  ∀ (s : State) (ra rb : RegNum) (v : Sym),
    (s.rs.ecc[(s.getX rb).toNat]? = some v →
      ∃ t, exec (.rsGete ra rb) s = .next t ∧ (t.getX ra).toNat = v.toNat ∧ OnlyX s t ra) ∧
    (s.rs.valid = true → (s.getX rb).toNat ≤ s.rs.nsym.toNat → s.rs.gen[(s.getX rb).toNat]? = some v →
      ∃ t, exec (.rsGetg ra rb) s = .next t ∧ (t.getX ra).toNat = v.toNat ∧ OnlyX s t ra) ∧
    (s.rs.valid = true → (s.getX rb).toNat < 2 ^ s.rs.m.toNat → s.rs.log[(s.getX rb).toNat]? = some (some v) →
      ∃ t, exec (.rsGetl ra rb) s = .next t ∧ (t.getX ra).toNat = v.toNat ∧ OnlyX s t ra) ∧
    (s.rs.valid = true → (s.getX rb).toNat < 2 ^ s.rs.m.toNat → s.rs.alog[(s.getX rb).toNat]? = some (some v) →
      ∃ t, exec (.rsGeta ra rb) s = .next t ∧ (t.getX ra).toNat = v.toNat ∧ OnlyX s t ra)

/-- R212, R217, R219, R220, R223 to R226, R228, R403: the error kinds of the RS commands. The read of an unwritten entry is
said of the whole computation, and for an encode also of its first symbol: a non-zero symbol whose logarithm is unwritten,
or a non-zero coefficient whose logarithm is. -/
def Obligations.ReedSolomonErrors : Prop :=
  ∀ (s : State) (ra rb : RegNum) (imm16 : BitVec 16) (k : Ix) (j : BitVec 1),
    ((s.getX ra).toNat < 2 ∨ 2 ^ (s.cfg.rsMMax + 1) ≤ (s.getX ra).toNat ∨ (s.getX rb).toNat = 0 ∨
        s.cfg.rsNsymMax < (s.getX rb).toNat →
      FailsWith (.rsInit ra rb imm16) s .unsupportedConfiguration) ∧
    (generator (tablesOf (s.getX ra)) imm16.toNat (s.getX rb).toNat = none →
      FailsWith (.rsInit ra rb imm16) s .unsupportedConfiguration) ∧
    (s.rs.valid = false →
      FailsWith (.rsEncn k) s .unsupportedConfiguration ∧ FailsWith (.rsEncw j) s .unsupportedConfiguration ∧
      FailsWith (.rsGetg ra rb) s .outOfRange ∧ FailsWith (.rsGetl ra rb) s .outOfRange ∧
      FailsWith (.rsGeta ra rb) s .outOfRange) ∧
    (8 < s.rs.m.toNat → FailsWith (.rsEncn k) s .unsupportedConfiguration) ∧
    (s.rs.valid = true → s.rs.m.toNat ≤ 8 → (∃ c ∈ s.getC k, 2 ^ s.rs.m.toNat ≤ c.toNat) →
      FailsWith (.rsEncn k) s .outOfRange) ∧
    (s.rs.valid = true → (∃ c ∈ s.getS j, 2 ^ s.rs.m.toNat ≤ c.toNat) → FailsWith (.rsEncw j) s .outOfRange) ∧
    (s.rs.valid = true → s.rs.m.toNat ≤ 8 → (∀ c ∈ s.getC k, c.toNat < 2 ^ s.rs.m.toNat) →
      s.rs.encode ((s.getC k).map (BitVec.setWidth 16)) = none → FailsWith (.rsEncn k) s .unsupportedConfiguration) ∧
    (s.rs.valid = true → (∀ c ∈ s.getS j, c.toNat < 2 ^ s.rs.m.toNat) → s.rs.encode (s.getS j) = none →
      FailsWith (.rsEncw j) s .unsupportedConfiguration) ∧
    (∀ (d : Sym) (rest : List Sym) (i : Nat) (g : Sym), s.rs.Ok s.cfg → s.rs.valid = true → d ≠ 0 →
      i < s.rs.nsym.toNat → s.rs.gen[i]? = some g → g ≠ 0 →
      s.rs.log[d.toNat]? = some none ∨ s.rs.log[g.toNat]? = some none → s.rs.encode (d :: rest) = none) ∧
    (s.rs.ecc.length ≤ (s.getX rb).toNat → FailsWith (.rsGete ra rb) s .outOfRange) ∧
    (s.rs.nsym.toNat < (s.getX rb).toNat → FailsWith (.rsGetg ra rb) s .outOfRange) ∧
    (2 ^ s.rs.m.toNat ≤ (s.getX rb).toNat →
      FailsWith (.rsGetl ra rb) s .outOfRange ∧ FailsWith (.rsGeta ra rb) s .outOfRange) ∧
    (s.rs.log[(s.getX rb).toNat]? = some none → FailsWith (.rsGetl ra rb) s .outOfRange) ∧
    (s.rs.alog[(s.getX rb).toNat]? = some none → FailsWith (.rsGeta ra rb) s .outOfRange)

/-! AI. -/

/-- R251 to R256, R266 to R270, with `SEP` the code of R8 (log 9): a message of valid fields, at most `AI_MAX` of them,
normalizes to the tokens and data with markers between them, and leaves a record for each field that points at its token and
its data. The message fits its buffer. The no-separator set is R268's, by the number of the first two digits of a token. -/
def Obligations.Gs1Normalizes : Prop :=
  (∀ (a b : Char8) (rest : List Char8) (v : Nat), isDigit a = true → isDigit b = true → 10 * dval a + dval b = v →
    (noSep (a :: b :: rest) = true ↔
      v ≤ 4 ∨ (11 ≤ v ∧ v ≤ 20) ∨ v = 23 ∨ (31 ≤ v ∧ v ≤ 36) ∨ v = 41)) ∧
  ∀ (s : State) (src dst : Ix) (fields : List AiField), s.cfg.Ok → fields ≠ [] →
    fields.length ≤ s.cfg.aiMax → (∀ f ∈ fields, f.Valid s.cfg) → s.getC src = bracketed fields →
    (s.getC src).length ≤ s.cfg.cMax →
    ∃ t, exec (.aiGs1 src dst) s = .next t ∧ t = { s with c := t.c, air := t.air, st := 0 } ∧
      (∀ k, k ≠ dst → t.getC k = s.getC k) ∧ t.getC dst = flattened fields ∧
      t.air.length = fields.length ∧
      ∀ (p : Nat) (f : AiField) (r : AiRecord), fields[p]? = some f → t.air[p]? = some r →
        r.value.toNat = decimal f.tok ∧ r.dataLoc.toNat = r.aiLoc.toNat + f.tok.length ∧
        r.dataLen.toNat = f.data.length ∧
        ((t.getC dst).drop r.aiLoc.toNat).take f.tok.length = f.tok ∧
        ((t.getC dst).drop r.dataLoc.toNat).take r.dataLen.toNat = f.data

/-- R252 to R256, R276: whatever `AI.GS1` accepts is a message of valid fields; its output holds no bracket, does not begin
with the marker, and is shorter than the message. -/
def Obligations.Gs1AcceptsOnlyValidMessages : Prop :=
  ∀ (s t : State) (src dst : Ix), exec (.aiGs1 src dst) s = .next t → t.st = 0 →
    (∃ fields : List AiField, fields ≠ [] ∧ fields.length ≤ s.cfg.aiMax ∧ (∀ f ∈ fields, f.Valid s.cfg) ∧
      s.getC src = bracketed fields) ∧
    openBracket ∉ t.getC dst ∧ closeBracket ∉ t.getC dst ∧ (t.getC dst).head? ≠ some Config.sep ∧
    (t.getC dst).length + t.air.length + 1 ≤ (s.getC src).length ∧ 1 ≤ t.air.length

/-- R251 to R256, R266, R271: the error kinds of `AI.GS1` in the order of its tests. A character outside the set; a message
that does not open with `[`; a broken bracket structure: a `[` inside a token, a `]` outside one, a token not closed, a token
that is not 2 to 4 digits; more than `AI_MAX` tokens; an empty data field or one whose length a rule does not admit. The rules are those that R262 to
R265 print, and a value that none of them names is admitted unless `AI_UNKNOWN_REJECT`. -/
def Obligations.Gs1Errors : Prop :=
  (∀ (reject : Bool) (v n : Nat), 1 ≤ n →
    (lengthOk reject v n = true ↔ PrintedLengths v n ∧ (reject = true → NamedAi v))) ∧
  ∀ (s : State) (src dst : Ix),
    ((∃ c ∈ s.getC src, c.toNat < 32 ∨ 126 < c.toNat) → FailsWith (.aiGs1 src dst) s .invalidCharacter) ∧
    ((∀ c ∈ s.getC src, 32 ≤ c.toNat ∧ c.toNat ≤ 126) →
      ((s.getC src).head? ≠ some openBracket → FailsWith (.aiGs1 src dst) s .invalidFormat) ∧
      (∀ pre mid post, s.getC src = pre ++ openBracket :: mid ++ openBracket :: post → closeBracket ∉ mid →
        FailsWith (.aiGs1 src dst) s .invalidFormat) ∧
      (∀ pre mid post, s.getC src = pre ++ closeBracket :: mid ++ closeBracket :: post → openBracket ∉ mid →
        FailsWith (.aiGs1 src dst) s .invalidFormat) ∧
      (∀ pre tok, s.getC src = pre ++ openBracket :: tok → closeBracket ∉ tok →
        FailsWith (.aiGs1 src dst) s .invalidFormat) ∧
      (∀ pre tok post, s.getC src = pre ++ openBracket :: tok ++ closeBracket :: post →
        openBracket ∉ tok → closeBracket ∉ tok →
        tok.length < 2 ∨ 4 < tok.length ∨ (∃ c ∈ tok, isDigit c = false) →
        FailsWith (.aiGs1 src dst) s .invalidFormat)) ∧
    (∀ fields : List AiField, (∀ f ∈ fields, f.Shaped) → s.getC src = bracketed fields →
      (s.cfg.aiMax < fields.length → FailsWith (.aiGs1 src dst) s .lengthExceeded) ∧
      (fields.length ≤ s.cfg.aiMax → (∃ f ∈ fields, ¬f.Sized s.cfg) →
        FailsWith (.aiGs1 src dst) s .invalidFormat))

/-- R272, for any `C39SET` (R165, log 8): `AI.HIBC` and its error kinds. -/
def Obligations.HibcFlag : Prop :=
  ∀ (s : State) (src dst : Ix),
    ((∃ c ∈ s.getC src, c ∉ s.cfg.c39set) → FailsWith (.aiHibc src dst) s .invalidCharacter) ∧
    ((∀ c ∈ s.getC src, c ∈ s.cfg.c39set) → 110 < (s.getC src).length → FailsWith (.aiHibc src dst) s .lengthExceeded) ∧
    ((∀ c ∈ s.getC src, c ∈ s.cfg.c39set) → (s.getC src).length ≤ 110 →
      ∃ t, exec (.aiHibc src dst) s = .next t ∧ OnlyC s t dst ∧ (t.getC dst).head? = some 0x2B ∧
        ((s.getC src).head? = some 0x2B → t.getC dst = s.getC src) ∧
        ((s.getC src).head? ≠ some 0x2B → t.getC dst = 0x2B :: s.getC src))

/-- R273: `AI.TILDE` accepts every byte string and never lengthens it; a string without `~` passes unchanged, and a string
of escaped characters gives the characters. What it leaves is what the three branches of R273 give and nothing else
(`Unescapes`); among them the corner cases the rule prints, a rejected number, too few digits, a `~` before an escape and a
`~` at the end. -/
def Obligations.TildeUnescapes : Prop :=
  ∀ (s : State) (src dst : Ix),
    ∃ t, exec (.aiTilde src dst) s = .next t ∧ OnlyC s t dst ∧ (t.getC dst).length ≤ (s.getC src).length ∧
      (tilde ∉ s.getC src → t.getC dst = s.getC src) ∧
      (∀ cs, s.getC src = cs.flatMap escaped → t.getC dst = cs) ∧
      (∀ a rest, s.getC src = tilde :: a :: rest → 0x40 ≤ a.toNat → a.toNat ≤ 0x5F →
        (t.getC dst).head? = some (a - 0x40)) ∧
      (∀ out, Unescapes (s.getC src) out ↔ t.getC dst = out) ∧
      (s.getC src = [0x7E, 0x32, 0x35, 0x36] → t.getC dst = [0x7E, 0x32, 0x35, 0x36]) ∧
      (s.getC src = [0x7E, 0x39, 0x39] → t.getC dst = [0x7E, 0x39, 0x39]) ∧
      (s.getC src = [0x7E, 0x7E, 0x40] → t.getC dst = [0x7E, 0]) ∧
      (∀ cs, s.getC src = cs ++ [tilde] → (t.getC dst).getLast? = some tilde)

/-- R274, R275, R402: reading the records; the count is at most `AI_MAX` in a safe state (R47). -/
def Obligations.AiRecordReads : Prop :=
  ∀ (s : State) (ra rb : RegNum),
    (s.cfg.Ok → s.air.length ≤ s.cfg.aiMax →
      ∃ t, exec (.aiCnt ra) s = .next t ∧ (t.getX ra).toNat = s.air.length ∧ OnlyX s t ra) ∧
    (∀ r f, s.air[(s.getX rb).toNat]? = some r →
      ∃ t, exec (.aiGetr ra rb f) s = .next t ∧ OnlyX s t ra ∧
        (t.getX ra).toNat = match f with
          | .value => r.value.toNat
          | .aiLoc => r.aiLoc.toNat
          | .dataLoc => r.dataLoc.toNat
          | .dataLen => r.dataLen.toNat) ∧
    (∀ f, s.air.length ≤ (s.getX rb).toNat → FailsWith (.aiGetr ra rb f) s .outOfRange)

/-! DC. -/

/-- R294 to R299, R371: `DC.ENC` does what the rules say branch by branch (`Encodes`), for any `DC_CODES` and any look-ahead
of at least one character (log 8). A start beyond the end is `OutOfRange`; else characters that no derivation encodes are
`InvalidCharacter`; else a stream longer than `BS_MAX_BITS` is `LengthExceeded`; else the bits go after those the stream
holds and the mode is the one the derivation ends in. The failures hold for both symbologies, the success for the
unlimited one; `DataBarCap` says what the other adds. -/
def Obligations.EncodeFollowsRules : Prop :=
  ∀ (s : State) (ra : RegNum) (src dst : Ix) (md : DcMode) (sym : Symbology), 1 ≤ s.cfg.dcIso2AlnRun →
    ((s.getC src).length < (s.getX ra).toNat → FailsWith (.dcEnc ra src dst md sym) s .outOfRange) ∧
    ((s.getX ra).toNat ≤ (s.getC src).length →
      ((¬∃ bits md', Encodes s.cfg md ((s.getC src).drop (s.getX ra).toNat) bits md') →
        FailsWith (.dcEnc ra src dst md sym) s .invalidCharacter) ∧
      ∀ bits md', Encodes s.cfg md ((s.getC src).drop (s.getX ra).toNat) bits md' →
        (s.cfg.bsMaxBits < (s.getB dst).bits.length + bits.length →
          FailsWith (.dcEnc ra src dst md sym) s .lengthExceeded) ∧
        ((s.getB dst).bits.length + bits.length ≤ s.cfg.bsMaxBits →
          ∃ t, exec (.dcEnc ra src dst md .cc) s = .next t ∧ OnlyBMode s t dst ∧
            (t.getB dst).bits = (s.getB dst).bits ++ bits ∧ t.dcmode = md'))

/-- R296, R298: with a look-ahead of at least one character the step count reaches the end of the input or an error, in every
mode; from NUMERIC, ALPHANUMERIC or ISO every string of characters that ISO mode encodes is encoded to its end, when the
stream has room for as many codes as there are steps. -/
def Obligations.EncodeReachesEnd : Prop :=
  ∀ (s : State) (ra : RegNum) (src dst : Ix) (md : DcMode), 1 ≤ s.cfg.dcIso2AlnRun →
    (∀ (cs : List Char8) (r : Compacted), compact s.cfg md cs = .ok r → r.left = []) ∧
    (md ≠ .alp → (s.getX ra).toNat ≤ (s.getC src).length →
      (∀ c ∈ (s.getC src).drop (s.getX ra).toNat, isoEncodable s.cfg.dcCodes c = true) →
      (s.getB dst).bits.length + (8 + s.cfg.dcCodes.toNumW) *
        (3 * ((s.getC src).length - (s.getX ra).toNat) + 3) ≤ s.cfg.bsMaxBits →
      ∃ t bits, exec (.dcEnc ra src dst md .cc) s = .next t ∧ OnlyBMode s t dst ∧
        (t.getB dst).bits = (s.getB dst).bits ++ bits ∧
        bits.length ≤ (8 + s.cfg.dcCodes.toNumW) * (3 * ((s.getC src).length - (s.getX ra).toNat) + 3) ∧
        Encodes s.cfg md ((s.getC src).drop (s.getX ra).toNat) bits t.dcmode)

/-- R294 to R297, R299, with the default codes of R303 to R305 (log 9): what the plain strings of each mode become. NUMERIC:
pairs of digits, a lone trailing digit, a separator in a pair. ALPHANUMERIC: letters and punctuation. ISO: small letters.
ALPHA-only: letters and digits, and the terminal separator, after which the mode is NUMERIC. -/
def Obligations.PlainStringsEncode : Prop :=
  ∀ (s : State) (ra : RegNum) (src dst : Ix), s.getX ra = 0 → s.cfg.dcCodes = defaultDcCodes →
    1 ≤ s.cfg.dcIso2AlnRun →
    (∀ n, (s.getC src).length = 2 * n → (∀ c ∈ s.getC src, isDigit c = true) →
      (s.getB dst).bits.length + 7 * n ≤ s.cfg.bsMaxBits →
      ∃ t, exec (.dcEnc ra src dst .num .cc) s = .next t ∧ OnlyBMode s t dst ∧ t.dcmode = .num ∧
        (t.getB dst).bits = (s.getB dst).bits ++ numericPairs (s.getC src)) ∧
    (∀ n ds c, s.getC src = ds ++ [c] → ds.length = 2 * n → (∀ a ∈ ds ++ [c], isDigit a = true) →
      (s.getB dst).bits.length + 7 * n + 7 ≤ s.cfg.bsMaxBits →
      ∃ t, exec (.dcEnc ra src dst .num .cc) s = .next t ∧ OnlyBMode s t dst ∧ t.dcmode = .num ∧
        (t.getB dst).bits = (s.getB dst).bits ++ numericPairs ds ++ msbBits (dval c * 11 + 18) 7) ∧
    (∀ c, isDigit c = true → (s.getB dst).bits.length + 7 ≤ s.cfg.bsMaxBits →
      (s.getC src = [c, 0x1D] → ∃ t, exec (.dcEnc ra src dst .num .cc) s = .next t ∧ OnlyBMode s t dst ∧
        t.dcmode = .num ∧ (t.getB dst).bits = (s.getB dst).bits ++ msbBits (dval c * 11 + 18) 7) ∧
      (s.getC src = [0x1D, c] → ∃ t, exec (.dcEnc ra src dst .num .cc) s = .next t ∧ OnlyBMode s t dst ∧
        t.dcmode = .num ∧ (t.getB dst).bits = (s.getB dst).bits ++ msbBits (dval c + 118) 7)) ∧
    ((∀ c ∈ s.getC src, isUpper c = true ∨ c = 0x2A ∨ (0x2C ≤ c.toNat ∧ c.toNat ≤ 0x2F)) →
      (s.getB dst).bits.length + 6 * (s.getC src).length ≤ s.cfg.bsMaxBits →
      ∃ t, exec (.dcEnc ra src dst .aln .cc) s = .next t ∧ OnlyBMode s t dst ∧ t.dcmode = .aln ∧
        (t.getB dst).bits = (s.getB dst).bits ++ (s.getC src).flatMap fun c =>
          msbBits (if isUpper c then c.toNat - 33 else if c = 0x2A then 58 else c.toNat + 15) 6) ∧
    ((∀ c ∈ s.getC src, isLower c = true) →
      (s.getB dst).bits.length + 7 * (s.getC src).length ≤ s.cfg.bsMaxBits →
      ∃ t, exec (.dcEnc ra src dst .iso .cc) s = .next t ∧ OnlyBMode s t dst ∧ t.dcmode = .iso ∧
        (t.getB dst).bits = (s.getB dst).bits ++ (s.getC src).flatMap fun c => msbBits (c.toNat - 7) 7) ∧
    (∀ cs, (∀ c ∈ cs, isUpper c = true ∨ isDigit c = true) →
      (s.getB dst).bits.length + 6 * cs.length + 5 ≤ s.cfg.bsMaxBits →
      (s.getC src = cs → ∃ t, exec (.dcEnc ra src dst .alp .cc) s = .next t ∧ OnlyBMode s t dst ∧ t.dcmode = .alp ∧
        (t.getB dst).bits = (s.getB dst).bits ++
          cs.flatMap fun c => if isUpper c then msbBits (c.toNat - 65) 5 else msbBits (c.toNat + 4) 6) ∧
      (s.getC src = cs ++ [0x1D] → ∃ t, exec (.dcEnc ra src dst .alp .cc) s = .next t ∧ OnlyBMode s t dst ∧
        t.dcmode = .num ∧
        (t.getB dst).bits = (s.getB dst).bits ++
          (cs.flatMap fun c => if isUpper c then msbBits (c.toNat - 65) 5 else msbBits (c.toNat + 4) 6) ++
          [true, true, true, true, true]))

/-- R300: the 252-bit cap. The DataBar Expanded selector changes a `DC.ENC` only where it succeeds without it and the whole
stream it leaves, header bits included, is longer than 252 bits: that fails with `LengthExceeded`. At 252 bits or fewer it
leaves the same state, and where the command fails without the selector it fails with it and with the same kind. -/
def Obligations.DataBarCap : Prop :=
  ∀ (s : State) (ra : RegNum) (src dst : Ix) (md : DcMode),
    (∀ t, exec (.dcEnc ra src dst md .cc) s = .next t → t.st = 0 →
      ((t.getB dst).bits.length ≤ 252 → exec (.dcEnc ra src dst md .dbe) s = .next t) ∧
      (252 < (t.getB dst).bits.length → FailsWith (.dcEnc ra src dst md .dbe) s .lengthExceeded)) ∧
    ∀ k, FailsWith (.dcEnc ra src dst md .cc) s k → FailsWith (.dcEnc ra src dst md .dbe) s k

/-- R320, R321, R322, R324: the tables hold the values R322 prints, the target is an entry of the table that is at least the
length, and no smaller entry is;
without one the command fails. A term with the reserved width class fails as the illegal word it is (log 5). The
error-correction level is given by its thresholds; that each belongs to the lower level (`<=`) is the spec's own reading from
general knowledge (R324's mark; log 9). -/
def Obligations.TargetAndLevel : Prop :=
  (capacityTable .a 0 = [167, 138, 118, 108, 88, 78, 59] ∧ capacityTable .a 1 = [167, 138, 118, 98, 78] ∧
    capacityTable .a 2 = [197, 167, 138, 108, 78] ∧ capacityTable .b 0 = [336, 296, 256, 208, 160, 104, 56] ∧
    capacityTable .b 1 = [768, 648, 536, 416, 304, 208, 152, 112, 72, 32] ∧
    capacityTable .b 2 = [1184, 1016, 840, 672, 496, 352, 264, 208, 152, 96, 56]) ∧
  ∀ (s : State) (ra rb : RegNum) (b : Ix) (wc : BitVec 2) (cm : CompositeMode),
    (wc.toNat < 3 → (∃ e ∈ capacityTable cm wc, (s.getB b).bits.length ≤ e) →
      ∃ t, exec (.dcTgt ra b wc cm) s = .next t ∧ OnlyX s t ra ∧
        (t.getX ra).toNat ∈ capacityTable cm wc ∧ (s.getB b).bits.length ≤ (t.getX ra).toNat ∧
        ∀ e ∈ capacityTable cm wc, (s.getB b).bits.length ≤ e → (t.getX ra).toNat ≤ e) ∧
    (wc.toNat < 3 → (∀ e ∈ capacityTable cm wc, e < (s.getB b).bits.length) →
      FailsWith (.dcTgt ra b wc cm) s .unsupportedConfiguration) ∧
    (3 ≤ wc.toNat → FailsWith (.dcTgt ra b wc cm) s .illegalCommand) ∧
    (∃ t, exec (.dcEccl ra rb) s = .next t ∧ OnlyX s t ra ∧
      2 ≤ (t.getX ra).toNat ∧ (t.getX ra).toNat ≤ 7 ∧
      ∀ l, 2 ≤ l → l ≤ 6 → ((t.getX ra).toNat ≤ l ↔ (s.getX rb).toNat ≤
        if l = 2 then 40 else 160 * 2 ^ (l - 3)))

/-- R325, R326, R327: `DC.PAD` leaves exactly the target length; the data stay, then comes the latch out of NUMERIC (`NUM_TO_ALN`,
log 8) if that was the mode, then the pad code `00100` over and over, cut at the target; otherwise it fails. `DC.GETM` and
`DC.SETM` read and write the mode by its number. -/
def Obligations.PadToTargetAndMode : Prop :=
  ∀ (s : State) (ra : RegNum) (b : Ix) (m2 : DcMode),
    ((s.getX ra).toNat < (s.getB b).bits.length ∨ s.cfg.bsMaxBits < (s.getX ra).toNat →
      FailsWith (.dcPad ra b) s .lengthExceeded) ∧
    ((s.getB b).bits.length = (s.getX ra).toNat → (s.getX ra).toNat ≤ s.cfg.bsMaxBits →
      ∃ t, exec (.dcPad ra b) s = .next t ∧ OnlyStatus s t) ∧
    ((s.getB b).bits.length < (s.getX ra).toNat → (s.getX ra).toNat ≤ s.cfg.bsMaxBits →
      ∃ t, exec (.dcPad ra b) s = .next t ∧ OnlyBMode s t b ∧
        t.dcmode = (if s.dcmode = .num then .aln else s.dcmode) ∧
        (t.getB b).bits.length = (s.getX ra).toNat ∧
        (∀ p, p < (s.getB b).bits.length → (t.getB b).bits[p]? = (s.getB b).bits[p]?) ∧
        ∀ p, (s.getB b).bits.length + p < (s.getX ra).toNat →
          (t.getB b).bits[(s.getB b).bits.length + p]? =
            some (if s.dcmode = .num then
                if p < 4 then s.cfg.dcCodes.numToAln.getLsbD (3 - p) else decide ((p - 4) % 5 = 2)
              else decide (p % 5 = 2))) ∧
    (∃ t, exec (.dcGetm ra) s = .next t ∧ OnlyX s t ra ∧ t.getX ra = s.dcmodeWord) ∧
    (∃ t, exec (.dcSetm m2) s = .next t ∧ t = { s with dcmode := m2, st := 0 } ∧
      t.readControl 3 = match m2 with
        | .num => 0
        | .aln => 1
        | .iso => 2
        | .alp => 3)

/-! SR. -/

/-- R343, R344: `SR.RLE` appends one row of the height given; its length is the sum of the digits, and module `q` of run `j`
is a bar exactly when `j` is even. -/
def Obligations.RunLengthRow : Prop :=
  ∀ (s : State) (k : Ix) (h8 : BitVec 8), (∀ c ∈ s.getC k, isDigit c = true) → s.rows.length < s.cfg.rowMax →
    ((s.getC k).map dval).sum ≤ s.cfg.rowLenMax →
    ∃ t r, exec (.srRle k h8) s = .next t ∧ OnlyRows s t ∧ t.rows = s.rows ++ [r] ∧ r.h = h8 ∧
      r.mods.length = ((s.getC k).map dval).sum ∧
      ∀ j c q, (s.getC k)[j]? = some c → q < dval c →
        r.mods[(((s.getC k).take j).map dval).sum + q]? = some (if j % 2 = 0 then .bar else .space)

/-- R345, for any `FOURSTATE_MAP` (R346, log 8): `SR.FOUR` appends three rows of heights 8, 5 and 8; cell `2j` of each carries
character `j`'s presence in it and cell `2j + 1` is a space. `SR.CLR` empties the store (R342). -/
def Obligations.FourStateRows : Prop :=
  ∀ (s : State) (k : Ix),
    (∃ t, exec .srClr s = .next t ∧ OnlyRows s t ∧ t.rows = []) ∧
    ((∀ c ∈ s.getC k, 0x30 ≤ c.toNat ∧ c.toNat ≤ 0x33) → s.rows.length + 3 ≤ s.cfg.rowMax →
      2 * (s.getC k).length ≤ s.cfg.rowLenMax →
      ∃ t r0 r1 r2, exec (.srFour k) s = .next t ∧ OnlyRows s t ∧ t.rows = s.rows ++ [r0, r1, r2] ∧
        r0.h = 8 ∧ r1.h = 5 ∧ r2.h = 8 ∧
        (∀ r ∈ [r0, r1, r2], r.mods.length = 2 * (s.getC k).length) ∧
        ∀ j c, (s.getC k)[j]? = some c →
          (∀ r ∈ [r0, r1, r2], r.mods[2 * j + 1]? = some .space) ∧
          ∃ u, s.cfg.fourstateMap.toList[c.toNat - 0x30]? = some u ∧
            r0.mods[2 * j]? = some (if u.1 then .bar else .space) ∧
            r1.mods[2 * j]? = some (if u.2.1 then .bar else .space) ∧
            r2.mods[2 * j]? = some (if u.2.2 then .bar else .space))

/-- R341, R347 to R350: the number of rows (at most `ROW_MAX` in a safe state, R47), a row's length, module and height. -/
def Obligations.RowReads : Prop :=
  ∀ (s : State) (ra rb : RegNum) (imm16 : BitVec 16),
    (s.cfg.Ok → s.rows.length ≤ s.cfg.rowMax →
      ∃ t, exec (.srNrow ra) s = .next t ∧ (t.getX ra).toNat = s.rows.length ∧ OnlyX s t ra) ∧
    (∀ r, s.rows[(s.getX rb).toNat]? = some r →
      (s.cfg.Ok → r.mods.length ≤ s.cfg.rowLenMax →
        ∃ t, exec (.srRlen ra rb) s = .next t ∧ (t.getX ra).toNat = r.mods.length ∧ OnlyX s t ra) ∧
      (∃ t, exec (.srGeth ra rb) s = .next t ∧ (t.getX ra).toNat = r.h.toNat ∧ OnlyX s t ra) ∧
      (∀ v, r.mods[imm16.toNat]? = some v →
        ∃ t, exec (.srGetm ra rb imm16) s = .next t ∧ OnlyX s t ra ∧
          (t.getX ra).toNat = match v with
            | .space => 0
            | .bar => 1
            | .guardNormal => 2
            | .guardExtended => 3
            | .guardShort => 4))

/-- R343, R345, R348 to R350: the error kinds of the SR commands, in the order of their tests. -/
def Obligations.SymbolRowErrors : Prop :=
  ∀ (s : State) (ra rb : RegNum) (imm16 : BitVec 16) (k : Ix) (h8 : BitVec 8),
    ((∃ c ∈ s.getC k, isDigit c = false) → FailsWith (.srRle k h8) s .invalidCharacter) ∧
    ((∀ c ∈ s.getC k, isDigit c = true) →
      s.rows.length = s.cfg.rowMax ∨ s.cfg.rowLenMax < ((s.getC k).map dval).sum →
      FailsWith (.srRle k h8) s .lengthExceeded) ∧
    ((∃ c ∈ s.getC k, c.toNat < 0x30 ∨ 0x33 < c.toNat) → FailsWith (.srFour k) s .invalidCharacter) ∧
    ((∀ c ∈ s.getC k, 0x30 ≤ c.toNat ∧ c.toNat ≤ 0x33) →
      s.cfg.rowMax < s.rows.length + 3 ∨ s.cfg.rowLenMax < 2 * (s.getC k).length →
      FailsWith (.srFour k) s .lengthExceeded) ∧
    (s.rows.length ≤ (s.getX rb).toNat →
      FailsWith (.srRlen ra rb) s .outOfRange ∧ FailsWith (.srGetm ra rb imm16) s .outOfRange ∧
      FailsWith (.srGeth ra rb) s .outOfRange) ∧
    (∀ r, s.rows[(s.getX rb).toNat]? = some r → r.mods.length ≤ imm16.toNat →
      FailsWith (.srGetm ra rb imm16) s .outOfRange)
end

