-- ==== Sys2Proof/Laws/AiParser.lean ====
section
/-! SUPPORT. What a length rule and a row of the length tables ask (R256, R262 to R266). -/

namespace Sys2Proof.Machine

/-- The test of a data length in one line: every rule that names the value admits the length, and when unnamed values are
rejected some rule names it. -/
theorem lengthOk_iff (reject : Bool) (v n : Nat) :
    lengthOk reject v n = true ↔
      (∀ r ∈ lengthRules, r.names v = true → r.admits n = true) ∧
        (reject = true → ∃ r ∈ lengthRules, r.names v = true) := by
  unfold lengthOk
  rw [Bool.and_eq_true, List.all_eq_true, Bool.or_eq_true, List.any_eq_true]
  refine and_congr (forall₂_congr fun r _ => ?_) ?_
  · cases r.names v <;> simp
  · cases reject <;> simp

/-- What one rule asks. -/
theorem LengthRule.meets_iff (r : LengthRule) (v n : Nat) :
    (r.names v = true → r.admits n = true) ↔ (r.lo ≤ v ∧ v ≤ r.hi → r.minLen ≤ n ∧ n ≤ r.maxLen) := by
  simp [LengthRule.names, LengthRule.admits]

/-- What a row of R262 asks. -/
theorem exact_row_meets (v n len : Nat) (values : List Nat) :
    (∀ r ∈ values.map fun a => (⟨a, a, len, len⟩ : LengthRule), r.names v = true → r.admits n = true) ↔
      (v ∈ values → n = len) := by
  simp only [List.forall_mem_map, LengthRule.meets_iff]
  refine ⟨fun h hv => ?_, fun h a ha hv => ?_⟩
  · have := h v hv ⟨le_rfl, le_rfl⟩
    omega
  · obtain rfl : v = a := by omega
    have := h ha
    omega

/-- What a row of R263 asks of a field that is not empty. -/
theorem max_row_meets (v n len : Nat) (hn : 1 ≤ n) (values : List Nat) :
    (∀ r ∈ values.map fun a => (⟨a, a, 1, len⟩ : LengthRule), r.names v = true → r.admits n = true) ↔
      (v ∈ values → n ≤ len) := by
  simp only [List.forall_mem_map, LengthRule.meets_iff]
  refine ⟨fun h hv => (h v hv ⟨le_rfl, le_rfl⟩).2, fun h a ha hv => ?_⟩
  obtain rfl : v = a := by omega
  exact ⟨hn, h ha⟩

end Sys2Proof.Machine
end

