-- ==== Sys2Proof/Laws/Decode.lean ====
section
/-! SUPPORT. The fields of a command word (R90, R91), read back from the word that holds them. -/

namespace Sys2Proof

variable (op : BitVec 8) (ra rb : RegNum) (imm : BitVec 16)

/-- A bit of a command word, by its field. -/
theorem kword_getLsbD (i : Nat) : (kword op ra rb imm).getLsbD i =
    if i < 16 then imm.getLsbD i else if i < 20 then rb.getLsbD (i - 16)
    else if i < 24 then ra.getLsbD (i - 20) else op.getLsbD (i - 24) := by
  have h : (op ++ ra ++ rb ++ imm : BitVec (8 + 4 + 4 + 16)).getLsbD i =
      if i < 16 then imm.getLsbD i else if i < 20 then rb.getLsbD (i - 16)
      else if i < 24 then ra.getLsbD (i - 20) else op.getLsbD (i - 24) := by
    simp only [BitVec.getLsbD_append]
    split
    · rfl
    · rw [show i - 16 - 4 - 4 = i - 24 by omega, show i - 16 - 4 = i - 20 by omega]
      simp only [show i - 16 < 4 ↔ i < 20 by omega, show i - 20 < 4 ↔ i < 24 by omega]
  exact h

@[simp] theorem opF_kword : opF (kword op ra rb imm) = op := by
  apply BitVec.eq_of_getLsbD_eq
  intro i hi
  simp [opF, kword_getLsbD, hi, show ¬ 24 + i < 16 by omega, show ¬ 24 + i < 20 by omega]

@[simp] theorem raF_kword : raF (kword op ra rb imm) = ra := by
  apply BitVec.eq_of_getLsbD_eq
  intro i hi
  simp [raF, kword_getLsbD, hi, show ¬ 20 + i < 16 by omega, show 20 + i < 24 by omega]

@[simp] theorem rbF_kword : rbF (kword op ra rb imm) = rb := by
  apply BitVec.eq_of_getLsbD_eq
  intro i hi
  simp [rbF, kword_getLsbD, hi, show 16 + i < 20 by omega]

@[simp] theorem immF_kword : immF (kword op ra rb imm) = imm := by
  apply BitVec.eq_of_getLsbD_eq
  intro i hi
  simp [immF, kword_getLsbD, hi]

/-- A word is its four fields. -/
theorem kword_fields (w : Word) : kword (opF w) (raF w) (rbF w) (immF w) = w := by
  apply BitVec.eq_of_getLsbD_eq
  intro i hi
  rw [kword_getLsbD]
  split
  · simp [immF]; omega
  · split
    · simp [rbF, show i - 16 < 4 by omega, show 16 + (i - 16) = i by omega]
    · split
      · simp [raF, show i - 20 < 4 by omega, show 20 + (i - 20) = i by omega]
      · simp [opF, show i - 24 < 8 by omega, show 24 + (i - 24) = i by omega]

/-- What a row of the decoder answers. -/
theorem checked_ok {w mask pattern : Word} {i j : Instr} (h : checked w mask pattern i = .ok j) :
    w &&& mask = pattern ∧ i.wellFormed = true ∧ j = i := by
  unfold checked at h
  split at h
  · split at h
    · exact ⟨by assumption, by assumption, by simpa using h.symm⟩
    · simp at h
  · simp at h

/-- A row accepts a word that has its pattern and holds no reserved value. -/
theorem checked_of {w mask pattern : Word} {i : Instr} (h : w &&& mask = pattern) (hi : i.wellFormed = true) :
    checked w mask pattern i = .ok i := by
  simp [checked, h, hi]

/-! The enumerated fields and their numbers. -/

@[simp] theorem DcMode.ofCode_code (m : DcMode) : DcMode.ofCode m.code = m := by cases m <;> rfl

@[simp] theorem DcMode.code_ofCode (v : BitVec 2) : (DcMode.ofCode v).code = v := by revert v; decide

@[simp] theorem Symbology.ofCode_code (m : Symbology) : Symbology.ofCode m.code = m := by cases m <;> rfl

@[simp] theorem Symbology.code_ofCode (v : BitVec 1) : (Symbology.ofCode v).code = v := by revert v; decide

@[simp] theorem CompositeMode.ofCode_code (m : CompositeMode) : CompositeMode.ofCode m.code = m := by cases m <;> rfl

@[simp] theorem CompositeMode.code_ofCode (v : BitVec 1) : (CompositeMode.ofCode v).code = v := by revert v; decide

@[simp] theorem RecField.ofCode_code (m : RecField) : RecField.ofCode m.code = m := by cases m <;> rfl

@[simp] theorem RecField.code_ofCode (v : BitVec 2) : (RecField.ofCode v).code = v := by revert v; decide

end Sys2Proof
end

