-- ==== Sys2Proof/Laws/State.lean ====
section
/-! SUPPORT. One lemma for each field of State under each update, and for each register read under each update, so that no
later proof unfolds a record update. -/

namespace Sys2Proof.Machine

variable (s : State)

/-! `setX`. -/

@[simp] theorem State.setX_x (r : RegNum) (v : Word) : (s.setX r v).x = s.x.set r.toNat v r.isLt := rfl
@[simp] theorem State.setX_st (r : RegNum) (v : Word) : (s.setX r v).st = s.st := rfl
@[simp] theorem State.setX_ef (r : RegNum) (v : Word) : (s.setX r v).ef = s.ef := rfl
@[simp] theorem State.setX_ecmd (r : RegNum) (v : Word) : (s.setX r v).ecmd = s.ecmd := rfl
@[simp] theorem State.setX_dcmode (r : RegNum) (v : Word) : (s.setX r v).dcmode = s.dcmode := rfl
@[simp] theorem State.setX_c (r : RegNum) (v : Word) : (s.setX r v).c = s.c := rfl
@[simp] theorem State.setX_sy (r : RegNum) (v : Word) : (s.setX r v).sy = s.sy := rfl
@[simp] theorem State.setX_b (r : RegNum) (v : Word) : (s.setX r v).b = s.b := rfl
@[simp] theorem State.setX_l (r : RegNum) (v : Word) : (s.setX r v).l = s.l := rfl
@[simp] theorem State.setX_rs (r : RegNum) (v : Word) : (s.setX r v).rs = s.rs := rfl
@[simp] theorem State.setX_air (r : RegNum) (v : Word) : (s.setX r v).air = s.air := rfl
@[simp] theorem State.setX_rows (r : RegNum) (v : Word) : (s.setX r v).rows = s.rows := rfl
@[simp] theorem State.setX_cfg (r : RegNum) (v : Word) : (s.setX r v).cfg = s.cfg := rfl
@[simp] theorem State.setX_host (r : RegNum) (v : Word) : (s.setX r v).host = s.host := rfl
@[simp] theorem State.getC_setX (r : RegNum) (v : Word) (q : Ix) : (s.setX r v).getC q = s.getC q := rfl
@[simp] theorem State.getS_setX (r : RegNum) (v : Word) (q : BitVec 1) : (s.setX r v).getS q = s.getS q := rfl
@[simp] theorem State.getB_setX (r : RegNum) (v : Word) (q : Ix) : (s.setX r v).getB q = s.getB q := rfl
@[simp] theorem State.getL_setX (r : RegNum) (v : Word) (q : Ix) : (s.setX r v).getL q = s.getL q := rfl

/-! `setC`. -/

@[simp] theorem State.setC_x (k : Ix) (v : List Char8) : (s.setC k v).x = s.x := rfl
@[simp] theorem State.setC_st (k : Ix) (v : List Char8) : (s.setC k v).st = s.st := rfl
@[simp] theorem State.setC_ef (k : Ix) (v : List Char8) : (s.setC k v).ef = s.ef := rfl
@[simp] theorem State.setC_ecmd (k : Ix) (v : List Char8) : (s.setC k v).ecmd = s.ecmd := rfl
@[simp] theorem State.setC_dcmode (k : Ix) (v : List Char8) : (s.setC k v).dcmode = s.dcmode := rfl
@[simp] theorem State.setC_c (k : Ix) (v : List Char8) : (s.setC k v).c = s.c.set k.toNat v k.isLt := rfl
@[simp] theorem State.setC_sy (k : Ix) (v : List Char8) : (s.setC k v).sy = s.sy := rfl
@[simp] theorem State.setC_b (k : Ix) (v : List Char8) : (s.setC k v).b = s.b := rfl
@[simp] theorem State.setC_l (k : Ix) (v : List Char8) : (s.setC k v).l = s.l := rfl
@[simp] theorem State.setC_rs (k : Ix) (v : List Char8) : (s.setC k v).rs = s.rs := rfl
@[simp] theorem State.setC_air (k : Ix) (v : List Char8) : (s.setC k v).air = s.air := rfl
@[simp] theorem State.setC_rows (k : Ix) (v : List Char8) : (s.setC k v).rows = s.rows := rfl
@[simp] theorem State.setC_cfg (k : Ix) (v : List Char8) : (s.setC k v).cfg = s.cfg := rfl
@[simp] theorem State.setC_host (k : Ix) (v : List Char8) : (s.setC k v).host = s.host := rfl
@[simp] theorem State.getX_setC (k : Ix) (v : List Char8) (q : RegNum) : (s.setC k v).getX q = s.getX q := rfl
@[simp] theorem State.getS_setC (k : Ix) (v : List Char8) (q : BitVec 1) : (s.setC k v).getS q = s.getS q := rfl
@[simp] theorem State.getB_setC (k : Ix) (v : List Char8) (q : Ix) : (s.setC k v).getB q = s.getB q := rfl
@[simp] theorem State.getL_setC (k : Ix) (v : List Char8) (q : Ix) : (s.setC k v).getL q = s.getL q := rfl

/-! `setS`. -/

@[simp] theorem State.setS_x (j : BitVec 1) (v : List Sym) : (s.setS j v).x = s.x := rfl
@[simp] theorem State.setS_st (j : BitVec 1) (v : List Sym) : (s.setS j v).st = s.st := rfl
@[simp] theorem State.setS_ef (j : BitVec 1) (v : List Sym) : (s.setS j v).ef = s.ef := rfl
@[simp] theorem State.setS_ecmd (j : BitVec 1) (v : List Sym) : (s.setS j v).ecmd = s.ecmd := rfl
@[simp] theorem State.setS_dcmode (j : BitVec 1) (v : List Sym) : (s.setS j v).dcmode = s.dcmode := rfl
@[simp] theorem State.setS_c (j : BitVec 1) (v : List Sym) : (s.setS j v).c = s.c := rfl
@[simp] theorem State.setS_sy (j : BitVec 1) (v : List Sym) : (s.setS j v).sy = s.sy.set j.toNat v j.isLt := rfl
@[simp] theorem State.setS_b (j : BitVec 1) (v : List Sym) : (s.setS j v).b = s.b := rfl
@[simp] theorem State.setS_l (j : BitVec 1) (v : List Sym) : (s.setS j v).l = s.l := rfl
@[simp] theorem State.setS_rs (j : BitVec 1) (v : List Sym) : (s.setS j v).rs = s.rs := rfl
@[simp] theorem State.setS_air (j : BitVec 1) (v : List Sym) : (s.setS j v).air = s.air := rfl
@[simp] theorem State.setS_rows (j : BitVec 1) (v : List Sym) : (s.setS j v).rows = s.rows := rfl
@[simp] theorem State.setS_cfg (j : BitVec 1) (v : List Sym) : (s.setS j v).cfg = s.cfg := rfl
@[simp] theorem State.setS_host (j : BitVec 1) (v : List Sym) : (s.setS j v).host = s.host := rfl
@[simp] theorem State.getX_setS (j : BitVec 1) (v : List Sym) (q : RegNum) : (s.setS j v).getX q = s.getX q := rfl
@[simp] theorem State.getC_setS (j : BitVec 1) (v : List Sym) (q : Ix) : (s.setS j v).getC q = s.getC q := rfl
@[simp] theorem State.getB_setS (j : BitVec 1) (v : List Sym) (q : Ix) : (s.setS j v).getB q = s.getB q := rfl
@[simp] theorem State.getL_setS (j : BitVec 1) (v : List Sym) (q : Ix) : (s.setS j v).getL q = s.getL q := rfl

/-! `setB`. -/

@[simp] theorem State.setB_x (k : Ix) (v : BitStream) : (s.setB k v).x = s.x := rfl
@[simp] theorem State.setB_st (k : Ix) (v : BitStream) : (s.setB k v).st = s.st := rfl
@[simp] theorem State.setB_ef (k : Ix) (v : BitStream) : (s.setB k v).ef = s.ef := rfl
@[simp] theorem State.setB_ecmd (k : Ix) (v : BitStream) : (s.setB k v).ecmd = s.ecmd := rfl
@[simp] theorem State.setB_dcmode (k : Ix) (v : BitStream) : (s.setB k v).dcmode = s.dcmode := rfl
@[simp] theorem State.setB_c (k : Ix) (v : BitStream) : (s.setB k v).c = s.c := rfl
@[simp] theorem State.setB_sy (k : Ix) (v : BitStream) : (s.setB k v).sy = s.sy := rfl
@[simp] theorem State.setB_b (k : Ix) (v : BitStream) : (s.setB k v).b = s.b.set k.toNat v k.isLt := rfl
@[simp] theorem State.setB_l (k : Ix) (v : BitStream) : (s.setB k v).l = s.l := rfl
@[simp] theorem State.setB_rs (k : Ix) (v : BitStream) : (s.setB k v).rs = s.rs := rfl
@[simp] theorem State.setB_air (k : Ix) (v : BitStream) : (s.setB k v).air = s.air := rfl
@[simp] theorem State.setB_rows (k : Ix) (v : BitStream) : (s.setB k v).rows = s.rows := rfl
@[simp] theorem State.setB_cfg (k : Ix) (v : BitStream) : (s.setB k v).cfg = s.cfg := rfl
@[simp] theorem State.setB_host (k : Ix) (v : BitStream) : (s.setB k v).host = s.host := rfl
@[simp] theorem State.getX_setB (k : Ix) (v : BitStream) (q : RegNum) : (s.setB k v).getX q = s.getX q := rfl
@[simp] theorem State.getC_setB (k : Ix) (v : BitStream) (q : Ix) : (s.setB k v).getC q = s.getC q := rfl
@[simp] theorem State.getS_setB (k : Ix) (v : BitStream) (q : BitVec 1) : (s.setB k v).getS q = s.getS q := rfl
@[simp] theorem State.getL_setB (k : Ix) (v : BitStream) (q : Ix) : (s.setB k v).getL q = s.getL q := rfl

/-! `setL`. -/

@[simp] theorem State.setL_x (r : Ix) (v : Large) : (s.setL r v).x = s.x := rfl
@[simp] theorem State.setL_st (r : Ix) (v : Large) : (s.setL r v).st = s.st := rfl
@[simp] theorem State.setL_ef (r : Ix) (v : Large) : (s.setL r v).ef = s.ef := rfl
@[simp] theorem State.setL_ecmd (r : Ix) (v : Large) : (s.setL r v).ecmd = s.ecmd := rfl
@[simp] theorem State.setL_dcmode (r : Ix) (v : Large) : (s.setL r v).dcmode = s.dcmode := rfl
@[simp] theorem State.setL_c (r : Ix) (v : Large) : (s.setL r v).c = s.c := rfl
@[simp] theorem State.setL_sy (r : Ix) (v : Large) : (s.setL r v).sy = s.sy := rfl
@[simp] theorem State.setL_b (r : Ix) (v : Large) : (s.setL r v).b = s.b := rfl
@[simp] theorem State.setL_l (r : Ix) (v : Large) : (s.setL r v).l = s.l.set r.toNat v r.isLt := rfl
@[simp] theorem State.setL_rs (r : Ix) (v : Large) : (s.setL r v).rs = s.rs := rfl
@[simp] theorem State.setL_air (r : Ix) (v : Large) : (s.setL r v).air = s.air := rfl
@[simp] theorem State.setL_rows (r : Ix) (v : Large) : (s.setL r v).rows = s.rows := rfl
@[simp] theorem State.setL_cfg (r : Ix) (v : Large) : (s.setL r v).cfg = s.cfg := rfl
@[simp] theorem State.setL_host (r : Ix) (v : Large) : (s.setL r v).host = s.host := rfl
@[simp] theorem State.getX_setL (r : Ix) (v : Large) (q : RegNum) : (s.setL r v).getX q = s.getX q := rfl
@[simp] theorem State.getC_setL (r : Ix) (v : Large) (q : Ix) : (s.setL r v).getC q = s.getC q := rfl
@[simp] theorem State.getS_setL (r : Ix) (v : Large) (q : BitVec 1) : (s.setL r v).getS q = s.getS q := rfl
@[simp] theorem State.getB_setL (r : Ix) (v : Large) (q : Ix) : (s.setL r v).getB q = s.getB q := rfl

/-! `setRs`. -/

@[simp] theorem State.setRs_x (v : RsUnit) : (s.setRs v).x = s.x := rfl
@[simp] theorem State.setRs_st (v : RsUnit) : (s.setRs v).st = s.st := rfl
@[simp] theorem State.setRs_ef (v : RsUnit) : (s.setRs v).ef = s.ef := rfl
@[simp] theorem State.setRs_ecmd (v : RsUnit) : (s.setRs v).ecmd = s.ecmd := rfl
@[simp] theorem State.setRs_dcmode (v : RsUnit) : (s.setRs v).dcmode = s.dcmode := rfl
@[simp] theorem State.setRs_c (v : RsUnit) : (s.setRs v).c = s.c := rfl
@[simp] theorem State.setRs_sy (v : RsUnit) : (s.setRs v).sy = s.sy := rfl
@[simp] theorem State.setRs_b (v : RsUnit) : (s.setRs v).b = s.b := rfl
@[simp] theorem State.setRs_l (v : RsUnit) : (s.setRs v).l = s.l := rfl
@[simp] theorem State.setRs_rs (v : RsUnit) : (s.setRs v).rs = v := rfl
@[simp] theorem State.setRs_air (v : RsUnit) : (s.setRs v).air = s.air := rfl
@[simp] theorem State.setRs_rows (v : RsUnit) : (s.setRs v).rows = s.rows := rfl
@[simp] theorem State.setRs_cfg (v : RsUnit) : (s.setRs v).cfg = s.cfg := rfl
@[simp] theorem State.setRs_host (v : RsUnit) : (s.setRs v).host = s.host := rfl
@[simp] theorem State.getX_setRs (v : RsUnit) (q : RegNum) : (s.setRs v).getX q = s.getX q := rfl
@[simp] theorem State.getC_setRs (v : RsUnit) (q : Ix) : (s.setRs v).getC q = s.getC q := rfl
@[simp] theorem State.getS_setRs (v : RsUnit) (q : BitVec 1) : (s.setRs v).getS q = s.getS q := rfl
@[simp] theorem State.getB_setRs (v : RsUnit) (q : Ix) : (s.setRs v).getB q = s.getB q := rfl
@[simp] theorem State.getL_setRs (v : RsUnit) (q : Ix) : (s.setRs v).getL q = s.getL q := rfl

/-! `setMode`. -/

@[simp] theorem State.setMode_x (v : DcMode) : (s.setMode v).x = s.x := rfl
@[simp] theorem State.setMode_st (v : DcMode) : (s.setMode v).st = s.st := rfl
@[simp] theorem State.setMode_ef (v : DcMode) : (s.setMode v).ef = s.ef := rfl
@[simp] theorem State.setMode_ecmd (v : DcMode) : (s.setMode v).ecmd = s.ecmd := rfl
@[simp] theorem State.setMode_dcmode (v : DcMode) : (s.setMode v).dcmode = v := rfl
@[simp] theorem State.setMode_c (v : DcMode) : (s.setMode v).c = s.c := rfl
@[simp] theorem State.setMode_sy (v : DcMode) : (s.setMode v).sy = s.sy := rfl
@[simp] theorem State.setMode_b (v : DcMode) : (s.setMode v).b = s.b := rfl
@[simp] theorem State.setMode_l (v : DcMode) : (s.setMode v).l = s.l := rfl
@[simp] theorem State.setMode_rs (v : DcMode) : (s.setMode v).rs = s.rs := rfl
@[simp] theorem State.setMode_air (v : DcMode) : (s.setMode v).air = s.air := rfl
@[simp] theorem State.setMode_rows (v : DcMode) : (s.setMode v).rows = s.rows := rfl
@[simp] theorem State.setMode_cfg (v : DcMode) : (s.setMode v).cfg = s.cfg := rfl
@[simp] theorem State.setMode_host (v : DcMode) : (s.setMode v).host = s.host := rfl
@[simp] theorem State.getX_setMode (v : DcMode) (q : RegNum) : (s.setMode v).getX q = s.getX q := rfl
@[simp] theorem State.getC_setMode (v : DcMode) (q : Ix) : (s.setMode v).getC q = s.getC q := rfl
@[simp] theorem State.getS_setMode (v : DcMode) (q : BitVec 1) : (s.setMode v).getS q = s.getS q := rfl
@[simp] theorem State.getB_setMode (v : DcMode) (q : Ix) : (s.setMode v).getB q = s.getB q := rfl
@[simp] theorem State.getL_setMode (v : DcMode) (q : Ix) : (s.setMode v).getL q = s.getL q := rfl

/-! `setAir`. -/

@[simp] theorem State.setAir_x (v : List AiRecord) : (s.setAir v).x = s.x := rfl
@[simp] theorem State.setAir_st (v : List AiRecord) : (s.setAir v).st = s.st := rfl
@[simp] theorem State.setAir_ef (v : List AiRecord) : (s.setAir v).ef = s.ef := rfl
@[simp] theorem State.setAir_ecmd (v : List AiRecord) : (s.setAir v).ecmd = s.ecmd := rfl
@[simp] theorem State.setAir_dcmode (v : List AiRecord) : (s.setAir v).dcmode = s.dcmode := rfl
@[simp] theorem State.setAir_c (v : List AiRecord) : (s.setAir v).c = s.c := rfl
@[simp] theorem State.setAir_sy (v : List AiRecord) : (s.setAir v).sy = s.sy := rfl
@[simp] theorem State.setAir_b (v : List AiRecord) : (s.setAir v).b = s.b := rfl
@[simp] theorem State.setAir_l (v : List AiRecord) : (s.setAir v).l = s.l := rfl
@[simp] theorem State.setAir_rs (v : List AiRecord) : (s.setAir v).rs = s.rs := rfl
@[simp] theorem State.setAir_air (v : List AiRecord) : (s.setAir v).air = v := rfl
@[simp] theorem State.setAir_rows (v : List AiRecord) : (s.setAir v).rows = s.rows := rfl
@[simp] theorem State.setAir_cfg (v : List AiRecord) : (s.setAir v).cfg = s.cfg := rfl
@[simp] theorem State.setAir_host (v : List AiRecord) : (s.setAir v).host = s.host := rfl
@[simp] theorem State.getX_setAir (v : List AiRecord) (q : RegNum) : (s.setAir v).getX q = s.getX q := rfl
@[simp] theorem State.getC_setAir (v : List AiRecord) (q : Ix) : (s.setAir v).getC q = s.getC q := rfl
@[simp] theorem State.getS_setAir (v : List AiRecord) (q : BitVec 1) : (s.setAir v).getS q = s.getS q := rfl
@[simp] theorem State.getB_setAir (v : List AiRecord) (q : Ix) : (s.setAir v).getB q = s.getB q := rfl
@[simp] theorem State.getL_setAir (v : List AiRecord) (q : Ix) : (s.setAir v).getL q = s.getL q := rfl

/-! `setRows`. -/

@[simp] theorem State.setRows_x (v : List Row) : (s.setRows v).x = s.x := rfl
@[simp] theorem State.setRows_st (v : List Row) : (s.setRows v).st = s.st := rfl
@[simp] theorem State.setRows_ef (v : List Row) : (s.setRows v).ef = s.ef := rfl
@[simp] theorem State.setRows_ecmd (v : List Row) : (s.setRows v).ecmd = s.ecmd := rfl
@[simp] theorem State.setRows_dcmode (v : List Row) : (s.setRows v).dcmode = s.dcmode := rfl
@[simp] theorem State.setRows_c (v : List Row) : (s.setRows v).c = s.c := rfl
@[simp] theorem State.setRows_sy (v : List Row) : (s.setRows v).sy = s.sy := rfl
@[simp] theorem State.setRows_b (v : List Row) : (s.setRows v).b = s.b := rfl
@[simp] theorem State.setRows_l (v : List Row) : (s.setRows v).l = s.l := rfl
@[simp] theorem State.setRows_rs (v : List Row) : (s.setRows v).rs = s.rs := rfl
@[simp] theorem State.setRows_air (v : List Row) : (s.setRows v).air = s.air := rfl
@[simp] theorem State.setRows_rows (v : List Row) : (s.setRows v).rows = v := rfl
@[simp] theorem State.setRows_cfg (v : List Row) : (s.setRows v).cfg = s.cfg := rfl
@[simp] theorem State.setRows_host (v : List Row) : (s.setRows v).host = s.host := rfl
@[simp] theorem State.getX_setRows (v : List Row) (q : RegNum) : (s.setRows v).getX q = s.getX q := rfl
@[simp] theorem State.getC_setRows (v : List Row) (q : Ix) : (s.setRows v).getC q = s.getC q := rfl
@[simp] theorem State.getS_setRows (v : List Row) (q : BitVec 1) : (s.setRows v).getS q = s.getS q := rfl
@[simp] theorem State.getB_setRows (v : List Row) (q : Ix) : (s.setRows v).getB q = s.getB q := rfl
@[simp] theorem State.getL_setRows (v : List Row) (q : Ix) : (s.setRows v).getL q = s.getL q := rfl

/-! `clearEf`. -/

@[simp] theorem State.clearEf_x : (s.clearEf).x = s.x := rfl
@[simp] theorem State.clearEf_st : (s.clearEf).st = s.st := rfl
@[simp] theorem State.clearEf_ef : (s.clearEf).ef = 0 := rfl
@[simp] theorem State.clearEf_ecmd : (s.clearEf).ecmd = s.ecmd := rfl
@[simp] theorem State.clearEf_dcmode : (s.clearEf).dcmode = s.dcmode := rfl
@[simp] theorem State.clearEf_c : (s.clearEf).c = s.c := rfl
@[simp] theorem State.clearEf_sy : (s.clearEf).sy = s.sy := rfl
@[simp] theorem State.clearEf_b : (s.clearEf).b = s.b := rfl
@[simp] theorem State.clearEf_l : (s.clearEf).l = s.l := rfl
@[simp] theorem State.clearEf_rs : (s.clearEf).rs = s.rs := rfl
@[simp] theorem State.clearEf_air : (s.clearEf).air = s.air := rfl
@[simp] theorem State.clearEf_rows : (s.clearEf).rows = s.rows := rfl
@[simp] theorem State.clearEf_cfg : (s.clearEf).cfg = s.cfg := rfl
@[simp] theorem State.clearEf_host : (s.clearEf).host = s.host := rfl
@[simp] theorem State.getX_clearEf (q : RegNum) : (s.clearEf).getX q = s.getX q := rfl
@[simp] theorem State.getC_clearEf (q : Ix) : (s.clearEf).getC q = s.getC q := rfl
@[simp] theorem State.getS_clearEf (q : BitVec 1) : (s.clearEf).getS q = s.getS q := rfl
@[simp] theorem State.getB_clearEf (q : Ix) : (s.clearEf).getB q = s.getB q := rfl
@[simp] theorem State.getL_clearEf (q : Ix) : (s.clearEf).getL q = s.getL q := rfl

/-! `succeed`. -/

@[simp] theorem State.succeed_x : (s.succeed).x = s.x := rfl
@[simp] theorem State.succeed_st : (s.succeed).st = 0 := rfl
@[simp] theorem State.succeed_ef : (s.succeed).ef = s.ef := rfl
@[simp] theorem State.succeed_ecmd : (s.succeed).ecmd = s.ecmd := rfl
@[simp] theorem State.succeed_dcmode : (s.succeed).dcmode = s.dcmode := rfl
@[simp] theorem State.succeed_c : (s.succeed).c = s.c := rfl
@[simp] theorem State.succeed_sy : (s.succeed).sy = s.sy := rfl
@[simp] theorem State.succeed_b : (s.succeed).b = s.b := rfl
@[simp] theorem State.succeed_l : (s.succeed).l = s.l := rfl
@[simp] theorem State.succeed_rs : (s.succeed).rs = s.rs := rfl
@[simp] theorem State.succeed_air : (s.succeed).air = s.air := rfl
@[simp] theorem State.succeed_rows : (s.succeed).rows = s.rows := rfl
@[simp] theorem State.succeed_cfg : (s.succeed).cfg = s.cfg := rfl
@[simp] theorem State.succeed_host : (s.succeed).host = s.host := rfl
@[simp] theorem State.getX_succeed (q : RegNum) : (s.succeed).getX q = s.getX q := rfl
@[simp] theorem State.getC_succeed (q : Ix) : (s.succeed).getC q = s.getC q := rfl
@[simp] theorem State.getS_succeed (q : BitVec 1) : (s.succeed).getS q = s.getS q := rfl
@[simp] theorem State.getB_succeed (q : Ix) : (s.succeed).getB q = s.getB q := rfl
@[simp] theorem State.getL_succeed (q : Ix) : (s.succeed).getL q = s.getL q := rfl

/-! `raise`. -/

@[simp] theorem State.raise_x (k : ErrorKind) (w : Word) : (s.raise k w).x = s.x := rfl
@[simp] theorem State.raise_st (k : ErrorKind) (w : Word) : (s.raise k w).st = k.code.setWidth 32 := rfl
@[simp] theorem State.raise_ef (k : ErrorKind) (w : Word) : (s.raise k w).ef = s.ef ||| (1#32 <<< k.code.toNat) := rfl
@[simp] theorem State.raise_ecmd (k : ErrorKind) (w : Word) : (s.raise k w).ecmd = w := rfl
@[simp] theorem State.raise_dcmode (k : ErrorKind) (w : Word) : (s.raise k w).dcmode = s.dcmode := rfl
@[simp] theorem State.raise_c (k : ErrorKind) (w : Word) : (s.raise k w).c = s.c := rfl
@[simp] theorem State.raise_sy (k : ErrorKind) (w : Word) : (s.raise k w).sy = s.sy := rfl
@[simp] theorem State.raise_b (k : ErrorKind) (w : Word) : (s.raise k w).b = s.b := rfl
@[simp] theorem State.raise_l (k : ErrorKind) (w : Word) : (s.raise k w).l = s.l := rfl
@[simp] theorem State.raise_rs (k : ErrorKind) (w : Word) : (s.raise k w).rs = s.rs := rfl
@[simp] theorem State.raise_air (k : ErrorKind) (w : Word) : (s.raise k w).air = s.air := rfl
@[simp] theorem State.raise_rows (k : ErrorKind) (w : Word) : (s.raise k w).rows = s.rows := rfl
@[simp] theorem State.raise_cfg (k : ErrorKind) (w : Word) : (s.raise k w).cfg = s.cfg := rfl
@[simp] theorem State.raise_host (k : ErrorKind) (w : Word) : (s.raise k w).host = s.host := rfl
@[simp] theorem State.getX_raise (k : ErrorKind) (w : Word) (q : RegNum) : (s.raise k w).getX q = s.getX q := rfl
@[simp] theorem State.getC_raise (k : ErrorKind) (w : Word) (q : Ix) : (s.raise k w).getC q = s.getC q := rfl
@[simp] theorem State.getS_raise (k : ErrorKind) (w : Word) (q : BitVec 1) : (s.raise k w).getS q = s.getS q := rfl
@[simp] theorem State.getB_raise (k : ErrorKind) (w : Word) (q : Ix) : (s.raise k w).getB q = s.getB q := rfl
@[simp] theorem State.getL_raise (k : ErrorKind) (w : Word) (q : Ix) : (s.raise k w).getL q = s.getL q := rfl

/-! `takeMove`. -/

@[simp] theorem State.takeMove_x (m : List HostMove) : (s.takeMove m).x = s.x := rfl
@[simp] theorem State.takeMove_st (m : List HostMove) : (s.takeMove m).st = s.st := rfl
@[simp] theorem State.takeMove_ef (m : List HostMove) : (s.takeMove m).ef = s.ef := rfl
@[simp] theorem State.takeMove_ecmd (m : List HostMove) : (s.takeMove m).ecmd = s.ecmd := rfl
@[simp] theorem State.takeMove_dcmode (m : List HostMove) : (s.takeMove m).dcmode = s.dcmode := rfl
@[simp] theorem State.takeMove_c (m : List HostMove) : (s.takeMove m).c = s.c := rfl
@[simp] theorem State.takeMove_sy (m : List HostMove) : (s.takeMove m).sy = s.sy := rfl
@[simp] theorem State.takeMove_b (m : List HostMove) : (s.takeMove m).b = s.b := rfl
@[simp] theorem State.takeMove_l (m : List HostMove) : (s.takeMove m).l = s.l := rfl
@[simp] theorem State.takeMove_rs (m : List HostMove) : (s.takeMove m).rs = s.rs := rfl
@[simp] theorem State.takeMove_air (m : List HostMove) : (s.takeMove m).air = s.air := rfl
@[simp] theorem State.takeMove_rows (m : List HostMove) : (s.takeMove m).rows = s.rows := rfl
@[simp] theorem State.takeMove_cfg (m : List HostMove) : (s.takeMove m).cfg = s.cfg := rfl
@[simp] theorem State.takeMove_host (m : List HostMove) : (s.takeMove m).host = m := rfl
@[simp] theorem State.getX_takeMove (m : List HostMove) (q : RegNum) : (s.takeMove m).getX q = s.getX q := rfl
@[simp] theorem State.getC_takeMove (m : List HostMove) (q : Ix) : (s.takeMove m).getC q = s.getC q := rfl
@[simp] theorem State.getS_takeMove (m : List HostMove) (q : BitVec 1) : (s.takeMove m).getS q = s.getS q := rfl
@[simp] theorem State.getB_takeMove (m : List HostMove) (q : Ix) : (s.takeMove m).getB q = s.getB q := rfl
@[simp] theorem State.getL_takeMove (m : List HostMove) (q : Ix) : (s.takeMove m).getL q = s.getL q := rfl

/-- Reading back what was written. -/
@[simp] theorem State.getX_setX_same (r : RegNum) (v : Word) : (s.setX r v).getX r = v := by
  simp [State.getX]

/-- Writing one leaves every other as it was. -/
theorem State.getX_setX_other (r q : RegNum) (v : Word) (h : q ≠ r) : (s.setX r v).getX q = s.getX q := by
  have hq : r.toNat ≠ q.toNat := fun e => h (BitVec.eq_of_toNat_eq e.symm)
  simp [State.getX, Vector.getElem_set_ne, hq]

/-- Reading any one after a write. -/
theorem State.getX_setX (r q : RegNum) (v : Word) : (s.setX r v).getX q = if q = r then v else s.getX q := by
  by_cases h : q = r
  · subst h; simp
  · simp [State.getX_setX_other, h]

/-- Reading back what was written. -/
@[simp] theorem State.getC_setC_same (r : Ix) (v : List Char8) : (s.setC r v).getC r = v := by
  simp [State.getC]

/-- Writing one leaves every other as it was. -/
theorem State.getC_setC_other (r q : Ix) (v : List Char8) (h : q ≠ r) : (s.setC r v).getC q = s.getC q := by
  have hq : r.toNat ≠ q.toNat := fun e => h (BitVec.eq_of_toNat_eq e.symm)
  simp [State.getC, Vector.getElem_set_ne, hq]

/-- Reading any one after a write. -/
theorem State.getC_setC (r q : Ix) (v : List Char8) : (s.setC r v).getC q = if q = r then v else s.getC q := by
  by_cases h : q = r
  · subst h; simp
  · simp [State.getC_setC_other, h]

/-- Reading back what was written. -/
@[simp] theorem State.getS_setS_same (r : BitVec 1) (v : List Sym) : (s.setS r v).getS r = v := by
  simp [State.getS]

/-- Writing one leaves every other as it was. -/
theorem State.getS_setS_other (r q : BitVec 1) (v : List Sym) (h : q ≠ r) : (s.setS r v).getS q = s.getS q := by
  have hq : r.toNat ≠ q.toNat := fun e => h (BitVec.eq_of_toNat_eq e.symm)
  simp [State.getS, Vector.getElem_set_ne, hq]

/-- Reading any one after a write. -/
theorem State.getS_setS (r q : BitVec 1) (v : List Sym) : (s.setS r v).getS q = if q = r then v else s.getS q := by
  by_cases h : q = r
  · subst h; simp
  · simp [State.getS_setS_other, h]

/-- Reading back what was written. -/
@[simp] theorem State.getB_setB_same (r : Ix) (v : BitStream) : (s.setB r v).getB r = v := by
  simp [State.getB]

/-- Writing one leaves every other as it was. -/
theorem State.getB_setB_other (r q : Ix) (v : BitStream) (h : q ≠ r) : (s.setB r v).getB q = s.getB q := by
  have hq : r.toNat ≠ q.toNat := fun e => h (BitVec.eq_of_toNat_eq e.symm)
  simp [State.getB, Vector.getElem_set_ne, hq]

/-- Reading any one after a write. -/
theorem State.getB_setB (r q : Ix) (v : BitStream) : (s.setB r v).getB q = if q = r then v else s.getB q := by
  by_cases h : q = r
  · subst h; simp
  · simp [State.getB_setB_other, h]

/-- Reading back what was written. -/
@[simp] theorem State.getL_setL_same (r : Ix) (v : Large) : (s.setL r v).getL r = v := by
  simp [State.getL]

/-- Writing one leaves every other as it was. -/
theorem State.getL_setL_other (r q : Ix) (v : Large) (h : q ≠ r) : (s.setL r v).getL q = s.getL q := by
  have hq : r.toNat ≠ q.toNat := fun e => h (BitVec.eq_of_toNat_eq e.symm)
  simp [State.getL, Vector.getElem_set_ne, hq]

/-- Reading any one after a write. -/
theorem State.getL_setL (r q : Ix) (v : Large) : (s.setL r v).getL q = if q = r then v else s.getL q := by
  by_cases h : q = r
  · subst h; simp
  · simp [State.getL_setL_other, h]

/-! `resetAll`: every piece of the spec's state at its reset value, the parameters and the host's list kept. -/

@[simp] theorem State.resetAll_host : s.resetAll.host = s.host := rfl
@[simp] theorem State.resetAll_cfg : s.resetAll.cfg = s.cfg := rfl

theorem State.resetAll_eq : s.resetAll = { State.resetWith s.cfg with host := s.host } := rfl

/-- A success is the state with `ST` cleared. -/
theorem State.succeed_eq : s.succeed = { s with st := 0 } := rfl

/-- A failure is the state with the three status registers written. -/
theorem State.raise_eq (k : ErrorKind) (w : Word) :
    s.raise k w = { s with st := k.code.setWidth 32, ef := s.ef ||| (1#32 <<< k.code.toNat), ecmd := w } := rfl

end Sys2Proof.Machine
end

