-- ==== Sys2Proof/Laws/Ops.lean ====
section
/-! SUPPORT. What each shared operation can do, said once: the lemmas the proofs cite instead of unfolding it. -/

namespace Sys2Proof.Machine

/-! How a command ends. -/

@[simp] theorem finish_ok (s : State) (i : Instr) (t : State) : finish s i (.ok t) = .next t.succeed := rfl

@[simp] theorem finish_error (s : State) (i : Instr) (k : ErrorKind) :
    finish s i (.error k) = .next (s.raise k (encode i)) := rfl

/-- A command that answers a next state either succeeded or failed with a kind. -/
theorem finish_next {s t : State} {i : Instr} {r : Except ErrorKind State} (h : finish s i r = .next t) :
    (∃ u, r = .ok u ∧ t = u.succeed) ∨ ∃ k, r = .error k ∧ t = s.raise k (encode i) := by
  cases r with
  | ok u => exact .inl ⟨u, rfl, by simpa using h.symm⟩
  | error k => exact .inr ⟨k, rfl, by simpa using h.symm⟩

/-- Every command ends through `finish`. -/
theorem exec_finish (i : Instr) (s : State) : ∃ r, exec i s = finish s i r := by
  cases i <;>
    simp only [exec, execNop, execLi, execLui, execClrerr, execSrst, execBclr, execBput, execBget, execBlen, execBsClr,
      execBsApb, execBsApbs, execBsIns, execBsRem, execBsXor, execBsGet, execBsSet, execBsTob, execBsSize,
      execBsSizeb, execCkMod10, execCkMod11, execCkMod43, execCkOpcc, execLnClr, execLnAdd, execLnSub, execLnMul,
      execLnShu, execLnShd, execLnCmp, execLnLdec, execLnGetb, execLnSetb, execRsInit, execRsEncn, execRsEncw,
      execRsGete, execRsGetg, execRsGetl, execRsGeta, execAiGs1, execAiHibc, execAiTilde, execAiCnt, execAiGetr,
      execDcEnc, execDcTgt, execDcEccl, execDcPad, execDcGetm, execDcSetm, execSrClr, execSrRle, execSrFour,
      execSrNrow, execSrRlen, execSrGetm, execSrGeth] <;>
    exact ⟨_, rfl⟩

/-- The code of a kind is 1 to 8. -/
theorem ErrorKind.code_bounds (k : ErrorKind) : 1 ≤ k.code.toNat ∧ k.code.toNat ≤ 8 := by
  cases k <;> decide

/-- A failed command leaves a code that is not 0. -/
theorem failStatus_ne_zero (k : ErrorKind) : failStatus k ≠ 0 := by cases k <;> decide

/-! Growth of a bit stream. -/

/-- Doubling gives a power-of-two multiple of the capacity, enough for the size within the turns given, and no doubling more
than needed. -/
theorem growCap_spec (size : Nat) : ∀ (turns cap : Nat), 1 ≤ cap → size ≤ 8 * (cap * 2 ^ turns) →
    ∃ j, growCap turns cap size = cap * 2 ^ j ∧ size ≤ 8 * growCap turns cap size ∧
      ∀ j', size ≤ 8 * (cap * 2 ^ j') → j ≤ j'
  | 0, cap, _, hs => ⟨0, by simp [growCap], by simpa [growCap] using hs, fun _ _ => Nat.zero_le _⟩
  | turns + 1, cap, hc, hs => by
    by_cases h : 8 * cap < size
    · have hs' : size ≤ 8 * (2 * cap * 2 ^ turns) := by
        rw [Nat.pow_succ] at hs
        calc size ≤ 8 * (cap * (2 ^ turns * 2)) := hs
          _ = 8 * (2 * cap * 2 ^ turns) := by ring
      obtain ⟨j, hj, hle, hmin⟩ := growCap_spec size turns (2 * cap) (by omega) hs'
      refine ⟨j + 1, ?_, ?_, ?_⟩
      · simp only [growCap, h, if_true, hj]; ring
      · simpa [growCap, h] using hle
      · intro j' hj'
        cases j' with
        | zero => simp at hj'; omega
        | succ n =>
          have : size ≤ 8 * (2 * cap * 2 ^ n) := by
            calc size ≤ 8 * (cap * 2 ^ (n + 1)) := hj'
              _ = 8 * (2 * cap * 2 ^ n) := by ring
          have := hmin n this
          omega
    · exact ⟨0, by simp [growCap, h], by simp [growCap, h]; omega, fun _ _ => Nat.zero_le _⟩

/-- As many turns as there are bits are always enough. -/
theorem size_le_double (size cap : Nat) (hc : 1 ≤ cap) : size ≤ 8 * (cap * 2 ^ size) := by
  have h1 : size < 2 ^ size := Nat.lt_two_pow_self
  have h2 : 1 * 2 ^ size ≤ cap * 2 ^ size := Nat.mul_le_mul_right _ hc
  omega

@[simp] theorem withBits_bits (v : BitStream) (bits : List Bool) : (v.withBits bits).bits = bits := rfl

/-- New bits that are no longer than the old leave the capacity as it was. -/
theorem withBits_cap_same (v : BitStream) (bits : List Bool) (h : bits.length ≤ v.bits.length) :
    (v.withBits bits).cap = v.cap := by
  simp [BitStream.withBits, Nat.not_lt.mpr h]

/-- An enlarged stream is within `BS_MAX_BITS`, or the command fails. -/
theorem grown_eq (v : BitStream) (maxBits : Nat) (bits : List Bool) :
    v.grown maxBits bits = if maxBits < bits.length then .error .lengthExceeded else .ok (v.withBits bits) := rfl

/-- `growTo` stores the enlarged bits, or fails with `LengthExceeded`. -/
theorem growTo_eq (s : State) (b : Ix) (bits : List Bool) :
    growTo s b bits = if s.cfg.bsMaxBits < bits.length then .error .lengthExceeded
      else .ok (s.setB b ((s.getB b).withBits bits)) := by
  unfold growTo
  rw [grown_eq]
  split <;> rename_i h <;> split at h <;> simp_all

/-- Appending by count: the low bits of a value, the most significant first. -/
theorem msbBits_length (v n : Nat) : (msbBits v n).length = n := by simp [msbBits]

/-- Bit `p` of the list is bit `n - 1 - p` of the value. -/
theorem msbBits_getElem? (v n p : Nat) (h : p < n) : (msbBits v n)[p]? = some (v.testBit (n - 1 - p)) := by
  simp [msbBits, h]

/-! The BUF selector. -/

/-- The selectors 0 to 3 are the character buffers. -/
theorem bufRef_chars (sp : BitVec 3) (k : Ix) (h : sp.toNat = k.toNat) : bufRef sp = some (.chars k) := by
  have hk := k.isLt
  have : BitVec.ofNat 2 sp.toNat = k := by rw [h]; simp
  simp [bufRef, this, show sp.toNat < 4 by omega]

/-- The selectors 4 and 5 are the symbol buffers. -/
theorem bufRef_syms (sp : BitVec 3) (j : BitVec 1) (h : sp.toNat = 4 + j.toNat) : bufRef sp = some (.syms j) := by
  have hj := j.isLt
  have : BitVec.ofNat 1 (sp.toNat - 4) = j := by
    rw [h, Nat.add_sub_cancel_left]; simp
  simp [bufRef, this, show ¬ sp.toNat < 4 by omega, show sp.toNat < 6 by omega]

/-- The selectors 6 and 7 are none. -/
theorem bufRef_reserved (sp : BitVec 3) (h : 6 ≤ sp.toNat) : bufRef sp = none := by
  simp [bufRef, show ¬ sp.toNat < 4 by omega, show ¬ sp.toNat < 6 by omega]

/-! Results in a register. -/

/-- A check command writes its character, or fails with `InvalidCharacter`. -/
theorem checksum_eq (s : State) (ra : RegNum) (k : Ix) (legal : Char8 → Bool) (result : List Char8 → Word) :
    checksum s ra k legal result =
      if (s.getC k).all legal then .ok (s.setX ra (result (s.getC k))) else .error .invalidCharacter := rfl

@[simp] theorem readSym_some (s : State) (ra : RegNum) (e : Sym) :
    readSym s ra (some e) = .ok (s.setX ra (e.setWidth 32)) := rfl

@[simp] theorem readSym_none (s : State) (ra : RegNum) : readSym s ra none = .error .outOfRange := rfl

/-- A row read writes the register, or there is nothing to read. -/
theorem readRow_eq (s : State) (ra rb : RegNum) (f : Row → Option Word) :
    readRow s ra rb f = match (s.rows[s.num rb]?).bind f with
      | some v => .ok (s.setX ra v)
      | none => .error .outOfRange := by
  unfold readRow
  cases s.rows[s.num rb]? with
  | none => rfl
  | some r => cases h : f r <;> simp [h]

/-! Numbers in registers. -/

/-- A number below `2^32` comes back from a register as it was. -/
theorem natWord_toNat (n : Nat) (h : n < 2 ^ 32) : (natWord n).toNat = n := by
  simpa [natWord] using Nat.mod_eq_of_lt h

@[simp] theorem bitWord_toNat (v : Bool) : (bitWord v).toNat = v.toNat := by cases v <;> rfl

/-! Reed-Solomon steps. -/

/-- All of a list of results came out, one for each. -/
theorem collect_some {vs : List (Option Sym)} {r : List Sym} : collect vs = some r ↔ vs = r.map some := by
  induction vs generalizing r with
  | nil => cases r <;> simp [collect]
  | cons v vs ih =>
    cases v with
    | none => cases r <;> simp [collect]
    | some a =>
      cases h : collect vs with
      | none =>
        cases r with
        | nil => simp [collect, h]
        | cons b r =>
          have : ¬ vs = r.map some := fun e => by have := ih.mpr e; simp [h] at this
          simp [collect, h, this]
      | some w =>
        cases r with
        | nil => simp [collect, h]
        | cons b r =>
          have : w = r ↔ vs = r.map some := by rw [← ih]; simp [h]
          simp [collect, h, this]

/-- As many results as there were. -/
theorem collect_length {vs : List (Option Sym)} {r : List Sym} (h : collect vs = some r) : r.length = vs.length := by
  rw [collect_some.mp h]; simp

/-- The register keeps its length when the coefficients reach it. -/
theorem lfsrStep_length {t : Tables} {gen r r' : List Sym} {d : Sym} (hg : r.length ≤ gen.length)
    (h : lfsrStep t gen r d = some r') : r'.length = r.length := by
  have := collect_length h
  simpa [Nat.min_eq_left hg] using this

/-- A run of symbols keeps the register's length. -/
theorem lfsrRun_length {t : Tables} {gen : List Sym} : ∀ {data r r' : List Sym}, r.length ≤ gen.length →
    lfsrRun t gen r data = some r' → r'.length = r.length
  | [], r, r', _, h => by simp [lfsrRun] at h; rw [h]
  | d :: ds, r, r', hg, h => by
    unfold lfsrRun at h
    split at h
    · rename_i q hq
      have hl := lfsrStep_length hg hq
      rw [lfsrRun_length (by omega) h, hl]
    · simp at h

/-! Host writes. -/

/-- A load answers a next state only within the maximum. -/
theorem hostLoad_next {fits : Bool} {t u : State} (h : hostLoad fits t = .next u) : fits = true ∧ u = t := by
  unfold hostLoad at h
  split at h
  · exact ⟨by assumption, by simpa using h.symm⟩
  · simp at h

/-- A poke answers a next state only where the element exists. -/
theorem hostPoke_next {existing : Bool} {t u : State} (h : hostPoke existing t = .next u) :
    existing = true ∧ u = t := by
  unfold hostPoke at h
  split at h
  · exact ⟨by assumption, by simpa using h.symm⟩
  · simp at h

end Sys2Proof.Machine
end

