-- ==== Sys2Proof/Laws/PerInstr.lean ====
section
/-! SUPPORT. Statements made instruction by instruction. The family `EncodeMatchesRow`: the word of a command, whatever its
operands, matches the command's row of the printed table (R94): its opcode is the row's and its must-be-zero bits are
zero. -/

namespace Sys2Proof.Laws

/-- Masking a word masks its fields. -/
theorem kword_and (op op' : BitVec 8) (ra rb ra' rb' : RegNum) (imm imm' : BitVec 16) :
    kword op ra rb imm &&& kword op' ra' rb' imm' = kword (op &&& op') (ra &&& ra') (rb &&& rb') (imm &&& imm') := by
  apply BitVec.eq_of_getLsbD_eq
  intro i hi
  simp only [BitVec.getLsbD_and, kword_getLsbD]
  split
  · rfl
  · split
    · rfl
    · split <;> rfl

/-- The word of `i` matches a row of the table. -/
def EncodeMatchesRow.Statement (i : Instr) : Prop :=
  ∃ r ∈ Machine.opcodeRows, encode i &&& r.2 = r.1

/-- A row with its mask and match given field by field. -/
theorem EncodeMatchesRow.of_fields {i : Instr} {op : BitVec 8} {ra rb mra mrb : RegNum} {imm mimm : BitVec 16}
    (he : encode i = kword op ra rb imm) (hr : (kword op 0 0 0, kword 0xFF mra mrb mimm) ∈ Machine.opcodeRows)
    (ha : ra &&& mra = 0) (hb : rb &&& mrb = 0) (hi : imm &&& mimm = 0) : EncodeMatchesRow.Statement i := by
  refine ⟨_, hr, ?_⟩
  rw [he, kword_and, ha, hb, hi]
  congr 1
  exact BitVec.and_allOnes

namespace EncodeMatchesRow

theorem nop : Statement (.nop) :=
  of_fields (mra := 0xF) (mrb := 0xF) (mimm := 0xFFFF) rfl (by decide)
    (by simp) (by simp) (by simp)

theorem li (ra imm16) : Statement (.li ra imm16) :=
  of_fields (mra := 0x0) (mrb := 0xF) (mimm := 0x0000) rfl (by decide)
    (by simp) (by simp) (by simp)

theorem lui (ra imm16) : Statement (.lui ra imm16) :=
  of_fields (mra := 0x0) (mrb := 0xF) (mimm := 0x0000) rfl (by decide)
    (by simp) (by simp) (by simp)

theorem clrerr : Statement (.clrerr) :=
  of_fields (mra := 0xF) (mrb := 0xF) (mimm := 0xFFFF) rfl (by decide)
    (by simp) (by simp) (by simp)

theorem srst : Statement (.srst) :=
  of_fields (mra := 0xF) (mrb := 0xF) (mimm := 0xFFFF) rfl (by decide)
    (by simp) (by simp) (by simp)

theorem bclr (sp) : Statement (.bclr sp) :=
  of_fields (mra := 0xF) (mrb := 0xF) (mimm := 0xFFF8) rfl (by decide)
    (by simp) (by simp) (by revert sp; decide)

theorem bput (ra sp) : Statement (.bput ra sp) :=
  of_fields (mra := 0x0) (mrb := 0xF) (mimm := 0xFFF8) rfl (by decide)
    (by simp) (by simp) (by revert sp; decide)

theorem bget (ra rb sp) : Statement (.bget ra rb sp) :=
  of_fields (mra := 0x0) (mrb := 0x0) (mimm := 0xFFF8) rfl (by decide)
    (by simp) (by simp) (by revert sp; decide)

theorem blen (ra sp) : Statement (.blen ra sp) :=
  of_fields (mra := 0x0) (mrb := 0xF) (mimm := 0xFFF8) rfl (by decide)
    (by simp) (by simp) (by revert sp; decide)

theorem bsClr (b) : Statement (.bsClr b) :=
  of_fields (mra := 0xF) (mrb := 0xF) (mimm := 0xFFFC) rfl (by decide)
    (by simp) (by simp) (by revert b; decide)

theorem bsApb (ra b) : Statement (.bsApb ra b) :=
  of_fields (mra := 0x0) (mrb := 0xF) (mimm := 0xFFFC) rfl (by decide)
    (by simp) (by simp) (by revert b; decide)

theorem bsApbs (ra n6 b) : Statement (.bsApbs ra n6 b) :=
  of_fields (mra := 0x0) (mrb := 0xF) (mimm := 0xC0FC) rfl (by decide)
    (by simp) (by simp) (by revert n6 b; decide)

theorem bsIns (ra rb b) : Statement (.bsIns ra rb b) :=
  of_fields (mra := 0x0) (mrb := 0x0) (mimm := 0xFFFC) rfl (by decide)
    (by simp) (by simp) (by revert b; decide)

theorem bsRem (ra rb b) : Statement (.bsRem ra rb b) :=
  of_fields (mra := 0x0) (mrb := 0x0) (mimm := 0xFFFC) rfl (by decide)
    (by simp) (by simp) (by revert b; decide)

theorem bsXor (b b2) : Statement (.bsXor b b2) :=
  of_fields (mra := 0xF) (mrb := 0xF) (mimm := 0xFFCC) rfl (by decide)
    (by simp) (by simp) (by revert b b2; decide)

theorem bsGet (ra rb b) : Statement (.bsGet ra rb b) :=
  of_fields (mra := 0x0) (mrb := 0x0) (mimm := 0xFFFC) rfl (by decide)
    (by simp) (by simp) (by revert b; decide)

theorem bsSet (ra rb b) : Statement (.bsSet ra rb b) :=
  of_fields (mra := 0x0) (mrb := 0x0) (mimm := 0xFFFC) rfl (by decide)
    (by simp) (by simp) (by revert b; decide)

theorem bsTob (b k) : Statement (.bsTob b k) :=
  of_fields (mra := 0xF) (mrb := 0xF) (mimm := 0xFFCC) rfl (by decide)
    (by simp) (by simp) (by revert b k; decide)

theorem bsSize (ra b) : Statement (.bsSize ra b) :=
  of_fields (mra := 0x0) (mrb := 0xF) (mimm := 0xFFFC) rfl (by decide)
    (by simp) (by simp) (by revert b; decide)

theorem bsSizeb (ra b) : Statement (.bsSizeb ra b) :=
  of_fields (mra := 0x0) (mrb := 0xF) (mimm := 0xFFFC) rfl (by decide)
    (by simp) (by simp) (by revert b; decide)

theorem ckMod10 (ra k) : Statement (.ckMod10 ra k) :=
  of_fields (mra := 0x0) (mrb := 0xF) (mimm := 0xFFFC) rfl (by decide)
    (by simp) (by simp) (by revert k; decide)

theorem ckMod11 (ra k) : Statement (.ckMod11 ra k) :=
  of_fields (mra := 0x0) (mrb := 0xF) (mimm := 0xFFFC) rfl (by decide)
    (by simp) (by simp) (by revert k; decide)

theorem ckMod43 (ra k) : Statement (.ckMod43 ra k) :=
  of_fields (mra := 0x0) (mrb := 0xF) (mimm := 0xFFFC) rfl (by decide)
    (by simp) (by simp) (by revert k; decide)

theorem ckOpcc (ra k) : Statement (.ckOpcc ra k) :=
  of_fields (mra := 0x0) (mrb := 0xF) (mimm := 0xFFFC) rfl (by decide)
    (by simp) (by simp) (by revert k; decide)

theorem lnClr (la) : Statement (.lnClr la) :=
  of_fields (mra := 0xF) (mrb := 0xF) (mimm := 0xFFFC) rfl (by decide)
    (by simp) (by simp) (by revert la; decide)

theorem lnAdd (la lb) : Statement (.lnAdd la lb) :=
  of_fields (mra := 0xF) (mrb := 0xF) (mimm := 0xFFCC) rfl (by decide)
    (by simp) (by simp) (by revert la lb; decide)

theorem lnSub (la lb) : Statement (.lnSub la lb) :=
  of_fields (mra := 0xF) (mrb := 0xF) (mimm := 0xFFCC) rfl (by decide)
    (by simp) (by simp) (by revert la lb; decide)

theorem lnMul (la k) : Statement (.lnMul la k) :=
  of_fields (mra := 0xF) (mrb := 0xF) (mimm := 0xFFCC) rfl (by decide)
    (by simp) (by simp) (by revert la k; decide)

theorem lnShu (la) : Statement (.lnShu la) :=
  of_fields (mra := 0xF) (mrb := 0xF) (mimm := 0xFFFC) rfl (by decide)
    (by simp) (by simp) (by revert la; decide)

theorem lnShd (la) : Statement (.lnShd la) :=
  of_fields (mra := 0xF) (mrb := 0xF) (mimm := 0xFFFC) rfl (by decide)
    (by simp) (by simp) (by revert la; decide)

theorem lnCmp (ra la lb) : Statement (.lnCmp ra la lb) :=
  of_fields (mra := 0x0) (mrb := 0xF) (mimm := 0xFFCC) rfl (by decide)
    (by simp) (by simp) (by revert la lb; decide)

theorem lnLdec (la k) : Statement (.lnLdec la k) :=
  of_fields (mra := 0xF) (mrb := 0xF) (mimm := 0xFFCC) rfl (by decide)
    (by simp) (by simp) (by revert la k; decide)

theorem lnGetb (ra rb la) : Statement (.lnGetb ra rb la) :=
  of_fields (mra := 0x0) (mrb := 0x0) (mimm := 0xFFFC) rfl (by decide)
    (by simp) (by simp) (by revert la; decide)

theorem lnSetb (ra rb la) : Statement (.lnSetb ra rb la) :=
  of_fields (mra := 0x0) (mrb := 0x0) (mimm := 0xFFFC) rfl (by decide)
    (by simp) (by simp) (by revert la; decide)

theorem rsInit (ra rb imm16) : Statement (.rsInit ra rb imm16) :=
  of_fields (mra := 0x0) (mrb := 0x0) (mimm := 0x0000) rfl (by decide)
    (by simp) (by simp) (by simp)

theorem rsEncn (k) : Statement (.rsEncn k) :=
  of_fields (mra := 0xF) (mrb := 0xF) (mimm := 0xFFFC) rfl (by decide)
    (by simp) (by simp) (by revert k; decide)

theorem rsEncw (s) : Statement (.rsEncw s) :=
  of_fields (mra := 0xF) (mrb := 0xF) (mimm := 0xFFFE) rfl (by decide)
    (by simp) (by simp) (by revert s; decide)

theorem rsGete (ra rb) : Statement (.rsGete ra rb) :=
  of_fields (mra := 0x0) (mrb := 0x0) (mimm := 0xFFFF) rfl (by decide)
    (by simp) (by simp) (by simp)

theorem rsGetg (ra rb) : Statement (.rsGetg ra rb) :=
  of_fields (mra := 0x0) (mrb := 0x0) (mimm := 0xFFFF) rfl (by decide)
    (by simp) (by simp) (by simp)

theorem rsGetl (ra rb) : Statement (.rsGetl ra rb) :=
  of_fields (mra := 0x0) (mrb := 0x0) (mimm := 0xFFFF) rfl (by decide)
    (by simp) (by simp) (by simp)

theorem rsGeta (ra rb) : Statement (.rsGeta ra rb) :=
  of_fields (mra := 0x0) (mrb := 0x0) (mimm := 0xFFFF) rfl (by decide)
    (by simp) (by simp) (by simp)

theorem aiGs1 (src dst) : Statement (.aiGs1 src dst) :=
  of_fields (mra := 0xF) (mrb := 0xF) (mimm := 0xFFCC) rfl (by decide)
    (by simp) (by simp) (by revert src dst; decide)

theorem aiHibc (src dst) : Statement (.aiHibc src dst) :=
  of_fields (mra := 0xF) (mrb := 0xF) (mimm := 0xFFCC) rfl (by decide)
    (by simp) (by simp) (by revert src dst; decide)

theorem aiTilde (src dst) : Statement (.aiTilde src dst) :=
  of_fields (mra := 0xF) (mrb := 0xF) (mimm := 0xFFCC) rfl (by decide)
    (by simp) (by simp) (by revert src dst; decide)

theorem aiCnt (ra) : Statement (.aiCnt ra) :=
  of_fields (mra := 0x0) (mrb := 0xF) (mimm := 0xFFFF) rfl (by decide)
    (by simp) (by simp) (by simp)

theorem aiGetr (ra rb f) : Statement (.aiGetr ra rb f) :=
  of_fields (mra := 0x0) (mrb := 0x0) (mimm := 0xFFFC) rfl (by decide)
    (by simp) (by simp) (by cases f <;> decide)

theorem dcEnc (ra src dst md sym) : Statement (.dcEnc ra src dst md sym) :=
  of_fields (mra := 0x0) (mrb := 0xF) (mimm := 0xECCC) rfl (by decide)
    (by simp) (by simp) (by cases md <;> cases sym <;> revert src dst <;> decide)

theorem dcTgt (ra b wc cm) : Statement (.dcTgt ra b wc cm) :=
  of_fields (mra := 0x0) (mrb := 0xF) (mimm := 0xFECC) rfl (by decide)
    (by simp) (by simp) (by cases cm <;> revert b wc <;> decide)

theorem dcEccl (ra rb) : Statement (.dcEccl ra rb) :=
  of_fields (mra := 0x0) (mrb := 0x0) (mimm := 0xFFFF) rfl (by decide)
    (by simp) (by simp) (by simp)

theorem dcPad (ra b) : Statement (.dcPad ra b) :=
  of_fields (mra := 0x0) (mrb := 0xF) (mimm := 0xFFFC) rfl (by decide)
    (by simp) (by simp) (by revert b; decide)

theorem dcGetm (ra) : Statement (.dcGetm ra) :=
  of_fields (mra := 0x0) (mrb := 0xF) (mimm := 0xFFFF) rfl (by decide)
    (by simp) (by simp) (by simp)

theorem dcSetm (m2) : Statement (.dcSetm m2) :=
  of_fields (mra := 0xF) (mrb := 0xF) (mimm := 0xFFFC) rfl (by decide)
    (by simp) (by simp) (by cases m2 <;> decide)

theorem srClr : Statement (.srClr) :=
  of_fields (mra := 0xF) (mrb := 0xF) (mimm := 0xFFFF) rfl (by decide)
    (by simp) (by simp) (by simp)

theorem srRle (k h8) : Statement (.srRle k h8) :=
  of_fields (mra := 0xF) (mrb := 0xF) (mimm := 0x00FC) rfl (by decide)
    (by simp) (by simp) (by revert k h8; decide)

theorem srFour (k) : Statement (.srFour k) :=
  of_fields (mra := 0xF) (mrb := 0xF) (mimm := 0xFFFC) rfl (by decide)
    (by simp) (by simp) (by revert k; decide)

theorem srNrow (ra) : Statement (.srNrow ra) :=
  of_fields (mra := 0x0) (mrb := 0xF) (mimm := 0xFFFF) rfl (by decide)
    (by simp) (by simp) (by simp)

theorem srRlen (ra rb) : Statement (.srRlen ra rb) :=
  of_fields (mra := 0x0) (mrb := 0x0) (mimm := 0xFFFF) rfl (by decide)
    (by simp) (by simp) (by simp)

theorem srGetm (ra rb imm16) : Statement (.srGetm ra rb imm16) :=
  of_fields (mra := 0x0) (mrb := 0x0) (mimm := 0x0000) rfl (by decide)
    (by simp) (by simp) (by simp)

theorem srGeth (ra rb) : Statement (.srGeth ra rb) :=
  of_fields (mra := 0x0) (mrb := 0x0) (mimm := 0xFFFF) rfl (by decide)
    (by simp) (by simp) (by simp)

end EncodeMatchesRow

end Sys2Proof.Laws
end

