-- ==== Sys2Proof/Laws/ReedSolomon.lean ====
section
/-! SUPPORT. Complete tables and the field multiplication they give (R214, R216). -/

namespace Sys2Proof.Machine

/-- Tables are complete when their entries are written and in range, one by one. -/
theorem Tables.complete_of_entries {t : Tables} {m : Nat} (hm : t.logmod = 2 ^ m - 1) (hpos : 0 < t.logmod)
    (hl : ∀ n, n < 2 ^ m → n ≠ 0 → (t.logOf (BitVec.ofNat 16 n)).isSome = true)
    (he : ∀ r, r < t.logmod → (t.alog[r]?.join).any (fun v => decide (v.toNat < 2 ^ m)) = true) : t.Complete m := by
  refine ⟨hm, fun a h0 h => ?_, fun e => ?_⟩
  · have hn : a.toNat ≠ 0 := fun e => h0 (BitVec.eq_of_toNat_eq (by simpa using e))
    have := hl a.toNat h hn
    rw [BitVec.ofNat_toNat, BitVec.setWidth_eq] at this
    exact Option.isSome_iff_exists.mp this
  · have := he (e % t.logmod) (Nat.mod_lt _ hpos)
    revert this
    unfold Tables.expOf
    cases t.alog[e % t.logmod]?.join with
    | none => exact fun h => absurd h (by simp)
    | some v => exact fun h => ⟨v, rfl, by simpa using h⟩

/-- A factor of zero gives zero and reads no table (R214). -/
@[simp] theorem Tables.gfmul_zero_left (t : Tables) (b : Sym) : t.gfmul 0 b = some 0 := by simp [Tables.gfmul]

@[simp] theorem Tables.gfmul_zero_right (t : Tables) (a : Sym) : t.gfmul a 0 = some 0 := by simp [Tables.gfmul]

/-- With complete tables the product of two field elements is a field element. -/
theorem Tables.Complete.gfmul {t : Tables} {m : Nat} (h : t.Complete m) {a b : Sym} (ha : a.toNat < 2 ^ m)
    (hb : b.toNat < 2 ^ m) : ∃ v, t.gfmul a b = some v ∧ v.toNat < 2 ^ m := by
  by_cases h0 : a = 0 ∨ b = 0
  · exact ⟨0, by simp only [Tables.gfmul, h0, if_true], by simp⟩
  · obtain ⟨ha0, hb0⟩ := not_or.mp h0
    obtain ⟨la, hla⟩ := h.2.1 a ha0 ha
    obtain ⟨lb, hlb⟩ := h.2.1 b hb0 hb
    obtain ⟨v, hv, hlt⟩ := h.2.2 (la + lb)
    exact ⟨v, by simp only [Tables.gfmul, h0, if_false, hlb, Tables.scale, hla, hv], hlt⟩

end Sys2Proof.Machine
end

