-- ==== Sys2Proof/Tests/Slice0.lean ====
section
/-! SUPPORT. The model's own tests: what WellFormed and the decoder refuse, every command's word from the example of its
rule, one step of each command with the result its rule's example gives, and a witness for the hypotheses of every
obligation that has them. -/

namespace Sys2Proof.Tests

open Sys2Proof.Machine

/-! WellFormed refuses each reserved field value (R95 (c)). -/

theorem test_bclr_reserved_space : (Instr.bclr 6).wellFormed = false := by decide
theorem test_bput_reserved_space : (Instr.bput 1 7).wellFormed = false := by decide
theorem test_bget_reserved_space : (Instr.bget 1 2 6).wellFormed = false := by decide
theorem test_blen_reserved_space : (Instr.blen 1 7).wellFormed = false := by decide
theorem test_dcTgt_reserved_class : (Instr.dcTgt 1 0 3 .a).wellFormed = false := by decide
theorem test_last_space_is_wellFormed : (Instr.bclr 5).wellFormed = true := by decide
theorem test_last_class_is_wellFormed : (Instr.dcTgt 1 0 2 .b).wellFormed = true := by decide

/-! The decoder's three refusals (R95). -/

theorem test_unassigned_opcode : decode 0x05000000 = .error .unassignedOpcode := by decide
theorem test_mustBeZero : decode 0x00000001 = .error .mustBeZero := by decide
theorem test_reserved_space_word : decode 0x08000006 = .error .reservedField := by decide
theorem test_reserved_class_word : decode 0x61100030 = .error .reservedField := by decide

/-! Every command's word, from the example of its rule (R111 to R350). -/

theorem test_decode_nop : decode 0x00000000 = .ok .nop := by decide
theorem test_decode_li : decode 0x0110011D = .ok (.li 1 0x11D) := by decide
theorem test_decode_lui : decode 0x0220DEAD = .ok (.lui 2 0xDEAD) := by decide
theorem test_decode_clrerr : decode 0x03000000 = .ok .clrerr := by decide
theorem test_decode_srst : decode 0x04000000 = .ok .srst := by decide
theorem test_decode_bclr : decode 0x08000001 = .ok (.bclr 1) := by decide
theorem test_decode_bput : decode 0x09F00000 = .ok (.bput 15 0) := by decide
theorem test_decode_bget : decode 0x0A120000 = .ok (.bget 1 2 0) := by decide
theorem test_decode_blen : decode 0x0B300004 = .ok (.blen 3 4) := by decide
theorem test_decode_bsClr : decode 0x10000002 = .ok (.bsClr 2) := by decide
theorem test_decode_bsApb : decode 0x11100000 = .ok (.bsApb 1 0) := by decide
theorem test_decode_bsApbs : decode 0x12100700 = .ok (.bsApbs 1 7 0) := by decide
theorem test_decode_bsIns : decode 0x13120000 = .ok (.bsIns 1 2 0) := by decide
theorem test_decode_bsRem : decode 0x14120000 = .ok (.bsRem 1 2 0) := by decide
theorem test_decode_bsXor : decode 0x15000010 = .ok (.bsXor 0 1) := by decide
theorem test_decode_bsGet : decode 0x16120000 = .ok (.bsGet 1 2 0) := by decide
theorem test_decode_bsSet : decode 0x17120000 = .ok (.bsSet 1 2 0) := by decide
theorem test_decode_bsTob : decode 0x18000010 = .ok (.bsTob 0 1) := by decide
theorem test_decode_bsSize : decode 0x19100000 = .ok (.bsSize 1 0) := by decide
theorem test_decode_bsSizeb : decode 0x1A100000 = .ok (.bsSizeb 1 0) := by decide
theorem test_decode_ckMod10 : decode 0x20100000 = .ok (.ckMod10 1 0) := by decide
theorem test_decode_ckMod11 : decode 0x21100000 = .ok (.ckMod11 1 0) := by decide
theorem test_decode_ckMod43 : decode 0x22100000 = .ok (.ckMod43 1 0) := by decide
theorem test_decode_ckOpcc : decode 0x23100000 = .ok (.ckOpcc 1 0) := by decide
theorem test_decode_lnClr : decode 0x30000003 = .ok (.lnClr 3) := by decide
theorem test_decode_lnAdd : decode 0x31000010 = .ok (.lnAdd 0 1) := by decide
theorem test_decode_lnSub : decode 0x32000010 = .ok (.lnSub 0 1) := by decide
theorem test_decode_lnMul : decode 0x33000010 = .ok (.lnMul 0 1) := by decide
theorem test_decode_lnShu : decode 0x34000002 = .ok (.lnShu 2) := by decide
theorem test_decode_lnShd : decode 0x35000002 = .ok (.lnShd 2) := by decide
theorem test_decode_lnCmp : decode 0x36100010 = .ok (.lnCmp 1 0 1) := by decide
theorem test_decode_lnLdec : decode 0x37000000 = .ok (.lnLdec 0 0) := by decide
theorem test_decode_lnGetb : decode 0x38120000 = .ok (.lnGetb 1 2 0) := by decide
theorem test_decode_lnSetb : decode 0x39120000 = .ok (.lnSetb 1 2 0) := by decide
theorem test_decode_rsInit : decode 0x40120001 = .ok (.rsInit 1 2 1) := by decide
theorem test_decode_rsEncn : decode 0x41000000 = .ok (.rsEncn 0) := by decide
theorem test_decode_rsEncw : decode 0x42000000 = .ok (.rsEncw 0) := by decide
theorem test_decode_rsGete : decode 0x43120000 = .ok (.rsGete 1 2) := by decide
theorem test_decode_rsGetg : decode 0x44120000 = .ok (.rsGetg 1 2) := by decide
theorem test_decode_rsGetl : decode 0x45120000 = .ok (.rsGetl 1 2) := by decide
theorem test_decode_rsGeta : decode 0x46120000 = .ok (.rsGeta 1 2) := by decide
theorem test_decode_aiGs1 : decode 0x50000010 = .ok (.aiGs1 0 1) := by decide
theorem test_decode_aiHibc : decode 0x51000010 = .ok (.aiHibc 0 1) := by decide
theorem test_decode_aiTilde : decode 0x52000000 = .ok (.aiTilde 0 0) := by decide
theorem test_decode_aiCnt : decode 0x53100000 = .ok (.aiCnt 1) := by decide
theorem test_decode_aiGetr : decode 0x54120002 = .ok (.aiGetr 1 2 .dataLoc) := by decide
theorem test_decode_dcEnc : decode 0x60001001 = .ok (.dcEnc 0 1 0 .num .dbe) := by decide
theorem test_decode_dcTgt : decode 0x61100010 = .ok (.dcTgt 1 0 1 .a) := by decide
theorem test_decode_dcEccl : decode 0x62120000 = .ok (.dcEccl 1 2) := by decide
theorem test_decode_dcPad : decode 0x63100000 = .ok (.dcPad 1 0) := by decide
theorem test_decode_dcGetm : decode 0x64300000 = .ok (.dcGetm 3) := by decide
theorem test_decode_dcSetm : decode 0x65000002 = .ok (.dcSetm .iso) := by decide
theorem test_decode_srClr : decode 0x70000000 = .ok .srClr := by decide
theorem test_decode_srRle : decode 0x71000800 = .ok (.srRle 0 8) := by decide
theorem test_decode_srFour : decode 0x72000000 = .ok (.srFour 0) := by decide
theorem test_decode_srNrow : decode 0x73100000 = .ok (.srNrow 1) := by decide
theorem test_decode_srRlen : decode 0x74120000 = .ok (.srRlen 1 2) := by decide
theorem test_decode_srGetm : decode 0x75120004 = .ok (.srGetm 1 2 4) := by decide
theorem test_decode_srGeth : decode 0x76120000 = .ok (.srGeth 1 2) := by decide

/-- Fields at the far ends of their ranges, laid out by R91: `md` 3 at imm[9:8], `sym` 1 at imm[12], `dst` 3, `src` 2. -/
theorem test_decode_dcEnc_all_fields : decode 0x60F01332 = .ok (.dcEnc 15 2 3 .alp .dbe) := by decide

/-- `n6` 63 at imm[13:8], stream 3 (R91): a command, whose own rule fails it. -/
theorem test_decode_bsApbs_all_fields : decode 0x12F03F03 = .ok (.bsApbs 15 63 3) := by decide

/-! One step of each command; the expected value is the rule's example or corner case. -/

/-- The state after a command. -/
def after (i : Instr) (s : State) : State :=
  match exec i s with
  | .next t => t
  | .fault _ => s
  | .refused _ => s

/-- Characters by their codes. -/
def chars (cs : List Nat) : List Char8 := cs.map (BitVec.ofNat 8)

/-- Bits written as 0 and 1. -/
def bits (bs : List Nat) : List Bool := bs.map fun b => b == 1

/-- Reset with `X[1]` and `X[2]`. -/
def regs (a b : Word) : State := (State.reset.setX 1 a).setX 2 b

/-- Reset with `C[0]` and `X[2]`. -/
def withChars (cs : List Nat) : State := State.reset.setC 0 (chars cs)

/-- A state with `B[0]`. -/
def withBits (s : State) (bs : List Nat) : State := s.setB 0 ((BitStream.fresh 32).withBits (bits bs))

/-- A state with `L[0]` and `L[1]`. -/
def withNumbers (a b : Large) : State := (State.reset.setL 0 a).setL 1 b

/-- A table of R217's example: its written entries. -/
def entries (vs : List Nat) : List TableEntry := vs.map fun v => some (BitVec.ofNat 16 v)

/-- The unit after the example of R217: polynomial 0x13, four symbols, index 1. -/
def unit13 : RsUnit :=
  { valid := true, poly := 0x13, m := 4, logmod := 15, nsym := 4, idx := 1,
    log := none :: entries [0, 1, 4, 2, 8, 5, 10, 3, 14, 9, 7, 6, 13, 11, 12],
    alog := entries [1, 2, 4, 8, 3, 6, 12, 11, 5, 10, 7, 14, 15, 13, 9] ++ [none],
    gen := [7, 8, 12, 13, 1], ecc := [] }

/-- Reset with that unit. -/
def rs13 : State := State.reset.setRs unit13

/-- `[01]04912345678907[10]ABC123` (R270). -/
def gtinMessage : List Nat :=
  [0x5B, 0x30, 0x31, 0x5D, 0x30, 0x34, 0x39, 0x31, 0x32, 0x33, 0x34, 0x35, 0x36, 0x37, 0x38, 0x39, 0x30, 0x37,
   0x5B, 0x31, 0x30, 0x5D, 0x41, 0x42, 0x43, 0x31, 0x32, 0x33]

theorem test_nop_clears_status : (after .nop ((State.reset.raise .outOfRange 0).setX 1 3)).st = 0 := by decide
theorem test_nop_keeps_ef : (after .nop (State.reset.raise .outOfRange 0)).ef = 0x20 := by decide
theorem test_li : (after (.li 1 0x11D) (regs 0xFFFFFFFF 0)).getX 1 = 0x0000011D := by decide
theorem test_lui : (after (.lui 2 0xDEAD) (regs 0 0x0000BEEF)).getX 2 = 0xDEADBEEF := by decide
theorem test_clrerr : (after .clrerr ((State.reset.raise .lengthExceeded 9).raise .outOfRange 7)).ef = 0 := by decide
theorem test_clrerr_keeps_ecmd : (after .clrerr (State.reset.raise .outOfRange 7)).ecmd = 7 := by decide
theorem test_srst : after .srst (withBits ((regs 1 2).raise .outOfRange 7) [1, 0]) = State.reset := rfl
theorem test_bclr : (after (.bclr 0) (withChars [65, 66])).getC 0 = [] := by decide
theorem test_bput : (after (.bput 15 0) (State.reset.setX 15 0x41)).getC 0 = [0x41] := by decide
theorem test_bput_too_wide : (after (.bput 1 0) (regs 0x100 0)).st = 5 := by decide
theorem test_bget : (after (.bget 1 2 0) ((withChars [65, 66]).setX 2 1)).getX 1 = 0x42 := by decide
theorem test_bget_beyond : (after (.bget 1 2 0) ((withChars [65, 66]).setX 2 2)).st = 5 := by decide
theorem test_blen : (after (.blen 3 4) (State.reset.setS 0 [1, 2, 3, 4, 5])).getX 3 = 5 := by decide
theorem test_bsClr : (after (.bsClr 0) (withBits State.reset (List.replicate 257 1))).bscap 0 = 32 := by
  decide +kernel
theorem test_bsApb : ((after (.bsApb 1 0) (regs 2 0)).getB 0).bits = [false] := by decide
theorem test_bsApb_grows :
    (after (.bsApb 1 0) (withBits State.reset (List.replicate 256 1))).bscap 0 = 64 := by
  decide +kernel
theorem test_bsApbs : ((after (.bsApbs 1 7 0) (regs 0x15 0)).getB 0).bits = bits [0, 0, 1, 0, 1, 0, 1] := by decide
theorem test_bsApbs_count : (after (.bsApbs 1 33 0) (regs 0x15 0)).st = 5 := by decide
theorem test_bsIns : ((after (.bsIns 1 2 0) (withBits (regs 1 1) [1, 0, 1])).getB 0).bits = bits [1, 1, 0, 1] := by
  decide
theorem test_bsIns_at_end : (after (.bsIns 1 2 0) (withBits (regs 3 1) [1, 0, 1])).st = 5 := by decide
theorem test_bsRem :
    ((after (.bsRem 1 2 0) (withBits (regs 1 3) [1, 1, 0, 0, 1, 0])).getB 0).bits = bits [1, 1, 0] := by decide
theorem test_bsRem_no_wrap : (after (.bsRem 1 2 0) (withBits (regs 1 0xFFFFFFFF) [1, 1])).st = 5 := by decide
theorem test_bsXor :
    ((after (.bsXor 0 1) ((withBits State.reset [1, 1, 0, 0]).setB 1
      ((BitStream.fresh 32).withBits (bits [1, 0, 1, 0])))).getB 0).bits = bits [0, 1, 1, 0] := by decide
theorem test_bsXor_sizes : (after (.bsXor 0 1) (withBits State.reset [1])).st = 4 := by decide
theorem test_bsGet : (after (.bsGet 1 2 0) (withBits (regs 0 2) [0, 0, 1, 0, 1, 0, 1])).getX 1 = 1 := by decide
theorem test_bsSet : ((after (.bsSet 1 2 0) (withBits (regs 2 1) [0, 0, 0])).getB 0).bits = bits [0, 0, 1] := by decide
theorem test_bsTob : (after (.bsTob 0 1) (withBits State.reset [0, 0, 1, 0, 1, 0, 1])).getC 1 = [0x2A] := by decide
theorem test_bsTob_two_bytes :
    (after (.bsTob 0 1) (withBits State.reset [1, 1, 1, 1, 1, 1, 1, 1, 0])).getC 1 = [0xFF, 0x00] := by decide
theorem test_bsSize : (after (.bsSize 1 0) (withBits State.reset [0, 0, 1, 0, 1, 0, 1])).getX 1 = 7 := by decide
theorem test_bsSizeb : (after (.bsSizeb 1 0) (withBits State.reset (List.replicate 9 0))).getX 1 = 2 := by decide
theorem test_ckMod10 : (after (.ckMod10 1 0)
    (withChars [0x34, 0x30, 0x30, 0x36, 0x33, 0x38, 0x31, 0x33, 0x33, 0x33, 0x39, 0x33])).getX 1 = 0x31 := by decide
theorem test_ckMod10_letter : (after (.ckMod10 1 0) (withChars [0x34, 0x41])).st = 1 := by decide
theorem test_ckMod11 :
    (after (.ckMod11 1 0) (withChars [0x31, 0x32, 0x33, 0x34, 0x35, 0x36])).getX 1 = 0x33 := by decide
theorem test_ckMod11_ten : (after (.ckMod11 1 0)
    (withChars [0x30, 0x30, 0x30, 0x30, 0x30, 0x30, 0x30, 0x30, 0x30, 0x31])).getX 1 = 0x58 := by decide
theorem test_ckMod43 :
    (after (.ckMod43 1 0) (withChars [0x43, 0x4F, 0x44, 0x45, 0x33, 0x39])).getX 1 = 0x57 := by decide
theorem test_ckOpcc :
    (after (.ckOpcc 1 0) (withChars [0x31, 0x32, 0x33, 0x34, 0x35, 0x36, 0x37])).getX 1 = 0x34 := by decide
theorem test_lnClr : (after (.lnClr 0) (withNumbers 7 8)).getL 0 = 0 := by decide
theorem test_lnAdd : (after (.lnAdd 0 1) (withNumbers 0xFF 1)).getL 0 = 0x100 := by decide
theorem test_lnAdd_wraps :
    (after (.lnAdd 0 1) (withNumbers 0xFFFFFFFFFFFFFFFFFFFFFFFFFFFF 1)).getL 0 = 0 := by decide
theorem test_lnSub : (after (.lnSub 0 1) (withNumbers 0x100 1)).getL 0 = 0xFF := by decide
theorem test_lnSub_wraps :
    (after (.lnSub 0 1) (withNumbers 5 7)).getL 0 = 0xFFFFFFFFFFFFFFFFFFFFFFFFFFFE := by decide
theorem test_lnMul : (after (.lnMul 0 0)
    ((withChars [0x36, 0x37, 0x38, 0x39]).setL 0 12345)).getL 0 = 0x4FED79D := by decide
theorem test_lnShu : (after (.lnShu 0) (withNumbers 5 0)).getL 0 = 10 := by decide
theorem test_lnShd : (after (.lnShd 0) (withNumbers 5 0)).getL 0 = 2 := by decide
theorem test_lnCmp : (after (.lnCmp 1 0 1) (withNumbers 5 3)).getX 1 = 1 := by decide
theorem test_lnCmp_window :
    (after (.lnCmp 1 0 1) (withNumbers 0x100000000000000000000000000 0)).getX 1 = 0 := by decide
theorem test_lnLdec : (after (.lnLdec 0 0) (withChars [0x32, 0x35, 0x35])).getL 0 = 0xFF := by decide
theorem test_lnLdec_letter : (after (.lnLdec 0 0) (withChars [0x32, 0x41])).st = 7 := by decide
theorem test_lnGetb : (after (.lnGetb 1 2 0) ((withNumbers 5 0).setX 2 2)).getX 1 = 1 := by decide
theorem test_lnGetb_beyond : (after (.lnGetb 1 2 0) ((withNumbers 5 0).setX 2 112)).st = 5 := by decide
theorem test_lnSetb : (after (.lnSetb 1 2 0) (regs 1 104)).getL 0 = 0x100000000000000000000000000 := by decide
theorem test_rsInit : (after (.rsInit 1 2 1) (regs 0x13 4)).rs = unit13 := by decide
theorem test_rsInit_large_polynomial : (after (.rsInit 1 2 1) (regs 0x2001 4)).st = 6 := by decide
theorem test_rsEncn : (after (.rsEncn 0) (rs13.setC 0 [1, 2, 3])).rs.ecc = [13, 7, 12, 2] := by decide
theorem test_rsEncn_before_init : (after (.rsEncn 0) State.reset).st = 6 := by decide
theorem test_rsEncw : (after (.rsEncw 0) (rs13.setS 0 [1, 2, 3])).rs.ecc = [13, 7, 12, 2] := by decide
theorem test_rsEncw_symbol_too_large : (after (.rsEncw 0) (rs13.setS 0 [16])).st = 5 := by decide
theorem test_rsGete :
    (after (.rsGete 1 2) ((after (.rsEncn 0) (rs13.setC 0 [1, 2, 3])).setX 2 3)).getX 1 = 2 := by decide
theorem test_rsGetg : (after (.rsGetg 1 2) (rs13.setX 2 0)).getX 1 = 7 := by decide
theorem test_rsGetl : (after (.rsGetl 1 2) (rs13.setX 2 9)).getX 1 = 14 := by decide
theorem test_rsGetl_unwritten : (after (.rsGetl 1 2) (rs13.setX 2 0)).st = 5 := by decide
theorem test_rsGeta : (after (.rsGeta 1 2) (rs13.setX 2 4)).getX 1 = 3 := by decide
theorem test_rsGeta_unwritten : (after (.rsGeta 1 2) (rs13.setX 2 15)).st = 5 := by decide
theorem test_aiGs1_output : (after (.aiGs1 0 1) (withChars gtinMessage)).getC 1 =
    chars [0x30, 0x31, 0x30, 0x34, 0x39, 0x31, 0x32, 0x33, 0x34, 0x35, 0x36, 0x37, 0x38, 0x39, 0x30, 0x37,
      0x31, 0x30, 0x41, 0x42, 0x43, 0x31, 0x32, 0x33] := by decide
theorem test_aiGs1_records : (after (.aiGs1 0 1) (withChars gtinMessage)).air =
    [{ value := 1, aiLoc := 0, dataLoc := 2, dataLen := 14 },
     { value := 10, aiLoc := 16, dataLoc := 18, dataLen := 6 }] := by decide
theorem test_aiHibc : (after (.aiHibc 0 1) (withChars [0x41, 0x31])).getC 1 = [0x2B, 0x41, 0x31] := by decide
theorem test_aiHibc_lower_case : (after (.aiHibc 0 1) (withChars [0x61])).st = 1 := by decide
theorem test_aiTilde :
    (after (.aiTilde 0 0) (withChars [0x7E, 0x41, 0x7E, 0x4A])).getC 0 = [0x01, 0x0A] := by decide
theorem test_aiTilde_256 :
    (after (.aiTilde 0 1) (withChars [0x7E, 0x32, 0x35, 0x36])).getC 1 = [0x7E, 0x32, 0x35, 0x36] := by decide
theorem test_aiCnt : (after (.aiCnt 1) (after (.aiGs1 0 1) (withChars gtinMessage))).getX 1 = 2 := by decide
theorem test_aiGetr :
    (after (.aiGetr 1 2 .dataLoc) ((after (.aiGs1 0 1) (withChars gtinMessage)).setX 2 1)).getX 1 = 18 := by decide
theorem test_dcEnc : ((after (.dcEnc 0 0 0 .num .dbe) (withChars [0x31, 0x32, 0x41])).getB 0).bits =
    bits [0, 0, 1, 0, 1, 0, 1, 0, 0, 0, 0, 1, 0, 0, 0, 0, 0] := by decide
theorem test_dcEnc_mode : (after (.dcEnc 0 0 0 .num .dbe) (withChars [0x31, 0x32, 0x41])).dcmode = .aln := by decide
theorem test_dcTgt_mode_a :
    (after (.dcTgt 1 0 1 .a) (withBits State.reset (List.replicate 100 0))).getX 1 = 118 := by decide
theorem test_dcTgt_mode_b :
    (after (.dcTgt 1 0 0 .b) (withBits State.reset (List.replicate 100 0))).getX 1 = 104 := by decide
theorem test_dcEccl : (after (.dcEccl 1 2) (regs 0 161)).getX 1 = 4 := by decide
theorem test_dcPad : ((after (.dcPad 1 0) (withBits (regs 20 0) [0, 1, 0, 0, 0, 0, 0])).getB 0).bits =
    bits [0, 1, 0, 0, 0, 0, 0, 0, 0, 0, 0, 0, 0, 1, 0, 0, 0, 0, 1, 0] := by decide
theorem test_dcPad_too_long : (after (.dcPad 1 0) (withBits (regs 1 0) [0, 1])).st = 3 := by decide
theorem test_dcGetm : (after (.dcGetm 3) (State.reset.setMode .aln)).getX 3 = 1 := by decide
theorem test_dcSetm : (after (.dcSetm .iso) State.reset).readControl 3 = 2 := by decide
theorem test_srClr : (after .srClr (after (.srRle 0 8) (withChars [0x31]))).rows = [] := by decide
theorem test_srRle : (after (.srRle 0 8) (withChars [0x31, 0x31, 0x32, 0x33])).rows =
    [{ mods := [.bar, .space, .bar, .bar, .space, .space, .space], h := 8 }] := by decide
theorem test_srFour_middle_row :
    ((after (.srFour 0) (withChars [0x30, 0x31, 0x32, 0x33])).rows[1]?) =
      some { mods := [.bar, .space, .bar, .space, .bar, .space, .bar, .space], h := 5 } := by decide
theorem test_srFour_last_row :
    ((after (.srFour 0) (withChars [0x30, 0x31, 0x32, 0x33])).rows[2]?) =
      some { mods := [.bar, .space, .space, .space, .bar, .space, .space, .space], h := 8 } := by decide

/-- After the example of R345. -/
def fourStore : State := after (.srFour 0) (withChars [0x30, 0x31, 0x32, 0x33])

theorem test_srNrow : (after (.srNrow 1) fourStore).getX 1 = 3 := by decide
theorem test_srRlen : (after (.srRlen 1 2) (fourStore.setX 2 1)).getX 1 = 8 := by decide
theorem test_srGetm : (after (.srGetm 1 2 4) (fourStore.setX 2 2)).getX 1 = 1 := by decide
theorem test_srGeth : (after (.srGeth 1 2) (fourStore.setX 2 1)).getX 1 = 5 := by decide

/-! Other parameters than the defaults (R9). -/

/-- Reset, but with one parameter changed. -/
def resetWithout (clears : Bool) : State := State.resetWith { defaultParams with lnLoadClears := clears }

/-- `LN_LOAD_CLEARS` false (R191): the old value 1 comes in front of the digits 2 and 5. -/
theorem test_lnLdec_keeps :
    (after (.lnLdec 0 0) (((resetWithout false).setC 0 [0x32, 0x35]).setL 0 1)).getL 0 = 125 := by decide

/-- The pad code of R325 does not follow `ALN_ISO`. -/
theorem test_dcPad_other_codes :
    ((after (.dcPad 1 0) (((State.resetWith
        { defaultParams with dcCodes := { defaultDcCodes with alnIso := 31 } }).setX 1 5).setMode .iso)).getB 0).bits =
      bits [0, 0, 1, 0, 0] := by decide

/-- `C_MAX` 1 (R118): the second character does not fit. -/
theorem test_bput_small_buffer :
    (after (.bput 1 0) (((State.resetWith { defaultParams with cMax := 1 }).setC 0 [0x41]).setX 1 0x42)).st = 3 := by
  decide

/-! The host's view. -/

/-- The first word the host issues after reset runs at the next step (log 1). -/
theorem test_withFetchWord_runs :
    (match step (State.reset.withFetchWord 32 0x0110011D) with
      | .next t => t.getX 1
      | _ => 0) = 0x11D := by decide

/-- `ID` is control register 16 (R33, R35). -/
theorem test_readControl_id : State.reset.readControl 16 = 0x5A4E4333 := by decide

/-- The host cannot write an element that does not exist (log 12). -/
theorem test_poke_beyond_faults :
    (match hostMove (.pokeC 0 0 65) State.reset with
      | .fault .noSuchElement => true
      | _ => false) = true := by decide

/-- Nor a buffer longer than its maximum (log 12). -/
theorem test_load_too_long_refused :
    (match hostMove (.loadS 0 (List.replicate 4097 0)) State.reset with
      | .refused .hostMoveNotOffered => true
      | _ => false) = true := by decide +kernel

/-! Witnesses: for every obligation with hypotheses, a concrete state and operands that meet them, each clause at a
boundary of its range. -/

/-- Reset with a full-size buffer `C[3]`, one short of full if `n` is 4095. -/
def fillC (n : Nat) : State := State.reset.setC 3 (List.replicate n 0x30)

/-- Reset with `S[1]` of a length. -/
def fillS (n : Nat) : State := State.reset.setS 1 (List.replicate n 0xFFFF)

/-- A state with `B[3]` of a length, at the largest capacity. -/
def fillB (s : State) (n : Nat) : State := s.setB 3 { bits := List.replicate n true, cap := 8192 }

theorem fillC_length (n : Nat) : ((fillC n).getC 3).length = n := by
  rw [fillC, State.getC_setC_same, List.length_replicate]
theorem fillS_length (n : Nat) : ((fillS n).getS 1).length = n := by
  rw [fillS, State.getS_setS_same, List.length_replicate]
theorem fillB_length (s : State) (n : Nat) : ((fillB s n).getB 3).bits.length = n := by
  rw [fillB, State.getB_setB_same, List.length_replicate]
theorem fillB_getX (s : State) (n : Nat) (r : RegNum) : (fillB s n).getX r = s.getX r := rfl

theorem witness_DecodeEncode : (Instr.bput 15 5).wellFormed = true ∧ (Instr.dcTgt 15 3 2 .b).wellFormed = true := by
  decide

theorem witness_EncodeDecode : decode 0x60F01332 = .ok (.dcEnc 15 2 3 .alp .dbe) := by decide

theorem witness_StepRunsDecodedInstruction :
    ({ State.reset with host := [.issue 0x0110011D, .reset] }).host = .issue 0x0110011D :: [.reset] ∧
      decode 0x0110011D = .ok (.li 1 0x11D) := ⟨rfl, by decide⟩

theorem witness_IllegalWordFails :
    ({ State.reset with host := [.issue 0x08000006] }).host = .issue 0x08000006 :: [] ∧
      decode 0x08000006 = .error .reservedField := ⟨rfl, by decide⟩

/-- The moves of the last clause: any but a command or reset. -/
theorem witness_HostPortWrites_protected :
    (∀ w, HostMove.writeX 1 5 ≠ .issue w) ∧ HostMove.writeX 1 5 ≠ .reset ∧
      hostMove (.writeX 1 5) State.reset = .next (State.reset.setX 1 5) := ⟨by simp, by simp, rfl⟩

theorem witness_HostReads :
    State.reset.air.length < 2 ^ 16 ∧ State.reset.rows.length < 2 ^ 16 ∧ (State.reset.getB 3).cap < 2 ^ 32 ∧
      17 ≤ 17 ∧ State.reset.rs.valid = false ∧ rs13.rs.valid = true ∧ unit13.Ok defaultParams :=
  ⟨by decide, by decide, by decide, by decide, rfl, rfl, by unfold RsUnit.Ok; decide⟩

theorem witness_HostPortWrites :
    (List.replicate 4096 (0 : Char8)).length ≤ defaultParams.cMax ∧ (List.replicate 4096 (0 : Sym)).length ≤ defaultParams.sMax ∧
      (1 < ((withChars [65, 66]).getC 0).length) ∧ 0 < ((State.reset.setS 0 [7]).getS 0).length ∧
      111 < Config.lnCells ∧ (List.replicate 65536 true).length ≤ defaultParams.bsMaxBits ∧
      (State.reset.getB 0).cap = defaultParams.bsCap0 * 2 ^ 0 ∧
      State.reset.rows.length + (List.replicate 128 (Row.mk (List.replicate 4096 .guardShort) 8)).length
        ≤ defaultParams.rowMax ∧
      ∀ r ∈ List.replicate 128 (Row.mk (List.replicate 4096 .guardShort) 8), r.mods.length ≤ defaultParams.rowLenMax := by
  refine ⟨by rw [List.length_replicate]; decide, by rw [List.length_replicate]; decide, by decide, by decide, by decide,
    by rw [List.length_replicate]; decide, by decide, by rw [List.length_replicate]; decide, ?_⟩
  intro r hr
  rw [List.eq_of_mem_replicate hr]
  show (List.replicate 4096 Module.guardShort).length ≤ _
  rw [List.length_replicate]
  decide

theorem witness_FailuresAreNotFatal :
    ({ State.reset with host := [.issue 0x05000000, .issue 0x04000000] }).host =
      [0x05000000, 0x04000000].map HostMove.issue := rfl

theorem witness_CommandsStayWithinFootprint :
    Instr.li 1 5 ≠ .srst ∧ exec (.li 1 5) State.reset = .next (after (.li 1 5) State.reset) := ⟨by simp, rfl⟩

theorem witness_FailuresAreNotFatal_reissued :
    exec (.bget 1 2 0) State.reset = .next (after (.bget 1 2 0) State.reset) ∧
      (after (.bget 1 2 0) State.reset).st ≠ 0 := ⟨rfl, by decide⟩

/-- Reset, with one word waiting: `BPUT X15, C0`. -/
def waiting : State := { State.reset with host := [.issue 0x09F00000] }

/-- The default parameters are possible ones (log 28). -/
theorem defaultParams_ok : defaultParams.Ok where
  charsLow := by decide
  charsHigh := by decide
  syms := by decide
  capacity := by decide
  doubling := ⟨8, by decide⟩
  bits := by decide
  field := by decide
  symbols := by decide
  records := by decide
  set := by decide
  latch := by decide
  ahead := by decide
  rows := by decide
  modules := by decide

/-- The helper states are machines with the default parameters. -/
theorem helpers_cfg (a b : Word) (cs bs : List Nat) (n : Nat) :
    (regs a b).cfg = defaultParams ∧ (withChars cs).cfg = defaultParams ∧
      (withBits State.reset bs).cfg = defaultParams ∧ (fillC n).cfg = defaultParams ∧ (fillS n).cfg = defaultParams ∧
      (fillB State.reset n).cfg = defaultParams ∧ rs13.cfg = defaultParams := ⟨rfl, rfl, rfl, rfl, rfl, rfl, rfl⟩

theorem witness_InvariantsAtReset : defaultParams.Ok := defaultParams_ok

theorem waiting_ok : StateOk waiting where
  params := defaultParams_ok
  chars k := by revert k; decide
  syms j := by revert j; decide
  bits b := by
    have h : waiting.getB b = BitStream.fresh 32 := by revert b; decide
    rw [h]
    exact ⟨by decide, by decide, by decide, 0, by decide⟩
  rs := by simp [RsUnit.Ok, waiting, State.reset, State.resetWith, RsUnit.empty]
  air := by decide
  rows := by decide
  modules := by decide

theorem witness_StateOkKept :
    StateOk waiting ∧ step waiting = .next (after (.bput 15 0) State.reset) := ⟨waiting_ok, rfl⟩

theorem witness_StatusOkKept :
    StatusOk waiting ∧ step waiting = .next (after (.bput 15 0) State.reset) :=
  ⟨⟨by decide, by decide, by decide⟩, rfl⟩

theorem witness_RsTablesStayBuilt :
    waiting.cfg.Ok ∧ RsBuilt waiting ∧ step waiting = .next (after (.bput 15 0) State.reset) :=
  ⟨defaultParams_ok, .inl rfl, rfl⟩

/-- The other case of the invariant: tables built, nothing encoded yet. -/
theorem witness_RsTablesStayBuilt_tables :
    ∃ u, rsOperandsOk defaultParams 0x13 4 = true ∧ rsBuild 0x13 4 1 = some u ∧ u.poly.toNat = 0x13 ∧ u.nsym.toNat = 4 ∧
      u.idx.toNat = 1 ∧ rs13.rs = { u with ecc := rs13.rs.ecc } :=
  ⟨unit13, by decide, by decide, by decide, by decide, by decide, rfl⟩

theorem witness_BufferPut :
    ((3 : BitVec 3).toNat = (3 : Ix).toNat ∧ ((fillC 4095).setX 1 0xFF |>.getX 1).toNat < 2 ^ 8 ∧
      ((fillC 4095).getC 3).length < defaultParams.cMax) ∧
    ((5 : BitVec 3).toNat = 4 + (1 : BitVec 1).toNat ∧ ((fillS 4095).setX 1 0xFFFF |>.getX 1).toNat < 2 ^ 16 ∧
      ((fillS 4095).getS 1).length < defaultParams.sMax) := by
  refine ⟨⟨rfl, by decide, by rw [fillC_length]; decide⟩, ⟨rfl, by decide, by rw [fillS_length]; decide⟩⟩

theorem witness_BufferReadAndClear :
    ((0 : BitVec 3).toNat = (0 : Ix).toNat ∧ ((withChars [65, 66]).getC 0)[1]? = some 66 ∧
      ((fillC 4096).getC 3).length ≤ defaultParams.cMax) ∧
    ((4 : BitVec 3).toNat = 4 + (0 : BitVec 1).toNat ∧ ((State.reset.setS 0 [7]).getS 0)[0]? = some 7 ∧
      ((fillS 4096).getS 1).length ≤ defaultParams.sMax) := by
  refine ⟨⟨rfl, by decide, by rw [fillC_length]; decide⟩, ⟨rfl, by decide, by rw [fillS_length]; decide⟩⟩

theorem witness_BufferErrors :
    2 ^ 8 ≤ ((regs 0x100 0).getX 1).toNat ∧ ((fillC 4096).getC 3).length = defaultParams.cMax ∧
      ((withChars [65]).getC 0).length ≤ (((withChars [65]).setX 2 1).getX 2).toNat ∧
      2 ^ 16 ≤ ((regs 0x10000 0).getX 1).toNat ∧ ((fillS 4096).getS 1).length = defaultParams.sMax ∧
      ((State.reset.setS 0 [7]).getS 0).length ≤ ((regs 0 1).getX 2).toNat ∧ 6 ≤ (6 : BitVec 3).toNat := by
  refine ⟨by decide, by rw [fillC_length]; decide, by decide, by decide, by rw [fillS_length]; decide,
    by decide, by decide⟩

theorem witness_AppendedBitsReadBack :
    ((fillB State.reset 65535).getB 3).bits.length < defaultParams.bsMaxBits ∧
      ((32 : BitVec 6).toNat ≤ 32 ∧
        ((fillB State.reset 65504).getB 3).bits.length + (32 : BitVec 6).toNat ≤ defaultParams.bsMaxBits) := by
  rw [fillB_length, fillB_length]; decide

theorem witness_InsertAndRemoveShift :
    (((regs 2 1).getX 1).toNat < ((withBits (regs 2 1) [1, 0, 1]).getB 0).bits.length ∧
      ((withBits (regs 2 1) [1, 0, 1]).getB 0).bits.length < defaultParams.bsMaxBits) ∧
    ((regs 2 1).getX 1).toNat + ((regs 2 1).getX 2).toNat ≤ ((withBits (regs 2 1) [1, 0, 1]).getB 0).bits.length := by
  decide

theorem witness_XorGetAndSetBits :
    (State.reset.getB 0).bits.length = (State.reset.getB 1).bits.length ∧
      ((withBits (regs 2 2) [1, 0, 1]).getB 0).bits[((withBits (regs 2 2) [1, 0, 1]).getX 2).toNat]? = some true ∧
      ((withBits (regs 2 2) [1, 0, 1]).getX 1).toNat < ((withBits (regs 2 2) [1, 0, 1]).getB 0).bits.length := by
  decide

theorem witness_ToBytesRoundTrip : ((fillB State.reset 32768).getB 3).bits.length ≤ 8 * defaultParams.cMax := by
  rw [fillB_length]; decide

theorem witness_StreamSizes : ((fillB State.reset 65536).getB 3).bits.length ≤ defaultParams.bsMaxBits := by
  rw [fillB_length]; decide

theorem witness_CapacityDoubles :
    StateOk waiting ∧ Instr.bsApb 1 0 ≠ .srst ∧ (∀ b, Instr.bsApb 1 0 ≠ .bsClr b) ∧
      exec (.bsApb 1 0) waiting = .next (after (.bsApb 1 0) waiting) := ⟨waiting_ok, by simp, by simp, rfl⟩

theorem witness_BitStreamErrors :
    ((fillB State.reset 65536).getB 3).bits.length = defaultParams.bsMaxBits ∧ 32 < (33 : BitVec 6).toNat ∧
      ((32 : BitVec 6).toNat ≤ 32 ∧
        defaultParams.bsMaxBits < ((fillB State.reset 65505).getB 3).bits.length + (32 : BitVec 6).toNat) ∧
      (State.reset.getB 0).bits.length ≤ (State.reset.getX 1).toNat ∧
      (((fillB (regs 65535 0) 65536).getX 1).toNat < ((fillB (regs 65535 0) 65536).getB 3).bits.length) ∧
      ((withBits (regs 1 3) [1, 1, 1]).getB 0).bits.length <
        ((withBits (regs 1 3) [1, 1, 1]).getX 1).toNat + ((withBits (regs 1 3) [1, 1, 1]).getX 2).toNat ∧
      ((withBits State.reset [1]).getB 0).bits.length ≠ ((withBits State.reset [1]).getB 1).bits.length ∧
      8 * defaultParams.cMax < ((fillB State.reset 32769).getB 3).bits.length := by
  refine ⟨by rw [fillB_length]; decide, by decide, by rw [fillB_length]; decide, by decide,
    ?_, by decide, by decide, by rw [fillB_length]; decide⟩
  rw [fillB_length, fillB_getX]
  decide

/-- Digit strings, empty and not: the hypothesis of the check and decimal commands. -/
theorem witness_digit_strings :
    (∀ c ∈ State.reset.getC 0, isDigit c = true) ∧ (∀ c ∈ (withChars [0x30, 0x39]).getC 0, isDigit c = true) := by
  decide

theorem witness_Mod10CheckDigit : ∀ c ∈ (withChars [0x30, 0x39]).getC 0, isDigit c = true := witness_digit_strings.2

theorem witness_Mod11AndOpccCharacters : ∀ c ∈ (withChars [0x30, 0x39]).getC 0, isDigit c = true :=
  witness_digit_strings.2

theorem witness_Mod43Character :
    defaultParams.c39set.length = 43 ∧ (∀ c ∈ (withChars [0x30, 0x25]).getC 0, c ∈ defaultParams.c39set) ∧
      ((withChars [0x25, 0x30]).getC 0).Perm ((withChars [0x30, 0x25]).getC 0) := by decide

theorem witness_CheckAndNumberErrors :
    (∃ c ∈ (withChars [0x30, 0x3A]).getC 0, isDigit c = false) ∧ (∃ c ∈ (withChars [0x61]).getC 0, c ∉ defaultParams.c39set) ∧
      112 ≤ ((regs 0 112).getX 2).toNat := by decide

theorem witness_AddThenSubtractRestores : (0 : Ix) ≠ 3 := by decide

theorem witness_CellCommands : ((regs 0 111).getX 2).toNat < 112 := by decide

theorem witness_DecimalLoadAndMultiply : ∀ c ∈ (withChars [0x30, 0x39]).getC 0, isDigit c = true :=
  witness_digit_strings.2

/-- The tables of the example of R217 are complete (R216). -/
theorem tables13_complete : unit13.tables.Complete 4 :=
  Tables.complete_of_entries (by decide) (by decide) (by decide) (by decide)

theorem tables13 : tablesOf 0x13 = unit13.tables := by decide

theorem witness_InitBuildsGenerator :
    2 ^ 4 ≤ ((regs 0x13 1024).getX 1).toNat ∧ ((regs 0x13 1024).getX 1).toNat < 2 ^ (4 + 1) ∧ 1 ≤ 4 ∧
      4 ≤ defaultParams.rsMMax ∧ 1 ≤ ((regs 0x13 1024).getX 2).toNat ∧
      ((regs 0x13 1024).getX 2).toNat ≤ defaultParams.rsNsymMax ∧ (tablesOf ((regs 0x13 1024).getX 1)).Complete 4 :=
  ⟨by decide, by decide, by decide, by decide, by decide, by decide, tables13 ▸ tables13_complete⟩

theorem witness_TableWalkPowers :
    2 ^ 4 ≤ (0x13 : Word).toNat ∧ (0x13 : Word).toNat < 2 ^ (4 + 1) ∧ 1 ≤ 4 ∧ 4 ≤ 16 ∧ 13 + 1 < 2 ^ 4 - 1 ∧
      (tablesOf 0x13).alog[14]? = some (some 9) ∧ (tablesOf 0x13).Complete 4 :=
  ⟨by decide, by decide, by decide, by decide, by decide, by decide +kernel, tables13 ▸ tables13_complete⟩

/-- A walk that revisits values (R228): 3 is at no place, and 15 is last at place 14. -/
theorem witness_TableWalkPowers_revisits :
    2 ^ 4 ≤ (0x1F : Word).toNat ∧ (0x1F : Word).toNat < 2 ^ (4 + 1) ∧
      (∀ v, v < 2 ^ 4 - 1 → (tablesOf 0x1F).alog[v]? ≠ some (some 3)) ∧
      (tablesOf 0x1F).alog[4]? = some (some 15) ∧ (tablesOf 0x1F).log[15]? = some (some 14) := by decide +kernel

theorem unit13_ok : unit13.Ok defaultParams := by
  unfold RsUnit.Ok
  decide

theorem rs13_rs : rs13.rs = unit13 := rfl

theorem witness_ZeroDataZeroCheck :
    rs13.rs.Ok rs13.cfg ∧ rs13.rs.valid = true ∧ rs13.rs.m.toNat ≤ 8 ∧ (∀ c ∈ (rs13.setC 0 [0, 0]).getC 0, c = 0) ∧
      ∀ c ∈ (rs13.setS 0 [0, 0]).getS 0, c = 0 := by
  rw [rs13_rs, State.getC_setC_same, State.getS_setS_same]
  exact ⟨unit13_ok, rfl, by decide, by simp, by simp⟩

theorem witness_EncodeIsRemainder :
    rs13.rs.Ok rs13.cfg ∧ rs13.rs.valid = true ∧ rs13.rs.tables.Complete rs13.rs.m.toNat ∧
      (∀ g ∈ rs13.rs.gen, g.toNat < 2 ^ rs13.rs.m.toNat) ∧ rs13.rs.m.toNat ≤ 8 ∧
      (∀ c ∈ (rs13.setC 0 [1, 15]).getC 0, c.toNat < 2 ^ rs13.rs.m.toNat) ∧
      ∀ c ∈ (rs13.setS 0 [1, 15]).getS 0, c.toNat < 2 ^ rs13.rs.m.toNat := by
  rw [rs13_rs, State.getC_setC_same, State.getS_setS_same, show unit13.m.toNat = 4 by decide]
  exact ⟨unit13_ok, rfl, tables13_complete, by simp [unit13], by decide, by simp, by simp⟩

/-- The example of R217 with the same two symbols in `C[0]` and `S[0]`. -/
def rs13Both : State := (rs13.setC 0 [1, 15]).setS 0 [1, 15]

/-- Whatever a command does, `after` is the state it answers. -/
theorem exec_after (i : Instr) (s : State) : exec i s = .next (after i s) := by
  obtain ⟨r, hr⟩ := exec_finish i s
  unfold after
  rw [hr]
  cases r <;> rfl

theorem witness_NarrowAndWideAgree :
    rs13Both.rs.m.toNat ≤ 8 ∧ rs13Both.getS 0 = (rs13Both.getC 0).map (BitVec.setWidth 16) ∧
      exec (.rsEncn 0) rs13Both = .next (after (.rsEncn 0) rs13Both) ∧
      exec (.rsEncw 0) rs13Both = .next (after (.rsEncw 0) rs13Both) :=
  ⟨by decide, by rw [rs13Both, State.getS_setS_same]; decide, exec_after _ _, exec_after _ _⟩

theorem witness_ReedSolomonReads :
    (after (.rsEncn 0) (rs13.setC 0 [1, 2, 3])).rs.ecc[3]? = some 2 ∧
      (rs13.rs.valid = true ∧ 4 ≤ rs13.rs.nsym.toNat ∧ rs13.rs.gen[4]? = some 1) ∧
      (15 < 2 ^ rs13.rs.m.toNat ∧ rs13.rs.log[15]? = some (some 12)) ∧
      (0 < 2 ^ rs13.rs.m.toNat ∧ rs13.rs.alog[0]? = some (some 1)) := by decide

/-- What `RS.INIT` builds from the polynomial of R228, two symbols and index 0: the logarithm of 3 is unwritten. -/
def unit1F : RsUnit :=
  { valid := true, poly := 0x1F, m := 4, logmod := 15, nsym := 2, idx := 0, log := (tablesOf 0x1F).log,
    alog := (tablesOf 0x1F).alog, gen := [2, 3, 1], ecc := [] }

/-- A table read that meets an unwritten entry (R217, R219, R220, R228). -/
theorem witness_ReedSolomonErrors_unwritten :
    generator (tablesOf 0x1F) 0 3 = none ∧ rsBuild 0x1F 2 0 = some unit1F ∧ unit1F.Ok defaultParams ∧
      unit1F.encode [1, 5] = none ∧ (1 < unit1F.nsym.toNat ∧ unit1F.gen[1]? = some 3 ∧ (3 : Sym) ≠ 0 ∧
      unit1F.log[3]? = some none) ∧ (∀ c ∈ [(1 : Sym), 5], c.toNat < 2 ^ unit1F.m.toNat) ∧ unit1F.m.toNat ≤ 8 := by
  refine ⟨by decide, by decide, ?_, by decide, by decide, ?_, by decide⟩
  · unfold RsUnit.Ok
    decide
  · intro c hc
    rcases List.mem_pair.mp hc with rfl | rfl <;> decide

theorem test_rsInit_unwritten : (after (.rsInit 1 2 0) (regs 0x1F 3)).st = 6 := by decide
theorem test_rsGetl_beyond : (after (.rsGetl 1 2) (rs13.setX 2 16)).st = 5 := by decide

theorem witness_ReedSolomonErrors :
    ((regs 1 4).getX 1).toNat < 2 ∧ 2 ^ (defaultParams.rsMMax + 1) ≤ ((regs 0x2000 4).getX 1).toNat ∧
      ((regs 0x13 0).getX 2).toNat = 0 ∧ defaultParams.rsNsymMax < ((regs 0x13 1025).getX 2).toNat ∧
      State.reset.rs.valid = false ∧ 8 < ({ rs13.rs with m := 9 } : RsUnit).m.toNat ∧
      (∃ c ∈ (rs13.setC 0 [16]).getC 0, 2 ^ rs13.rs.m.toNat ≤ c.toNat) ∧
      (∃ c ∈ (rs13.setS 0 [16]).getS 0, 2 ^ rs13.rs.m.toNat ≤ c.toNat) ∧
      rs13.rs.ecc.length ≤ ((rs13.setX 2 0).getX 2).toNat ∧ rs13.rs.nsym.toNat < ((rs13.setX 2 5).getX 2).toNat ∧
      rs13.rs.log[0]? = some none ∧ rs13.rs.alog[15]? = some none ∧ 2 ^ rs13.rs.m.toNat ≤ ((rs13.setX 2 16).getX 2).toNat :=
  ⟨by decide, by decide, by decide, by decide, by decide, by decide, ⟨16, by decide, by decide⟩,
    ⟨16, by decide, by decide⟩, by decide, by decide, by decide, by decide, by decide⟩

/-- `[10]A` and `[01]` with fourteen characters, as fields. -/
def twoFields : List AiField :=
  [{ tok := [0x31, 0x30], data := [0x41] }, { tok := [0x30, 0x31], data := List.replicate 14 0x39 }]

theorem witness_Gs1Normalizes :
    twoFields ≠ [] ∧ twoFields.length ≤ defaultParams.aiMax ∧ (∀ f ∈ twoFields, f.Valid defaultParams) ∧
      (State.reset.setC 0 (bracketed twoFields)).getC 0 = bracketed twoFields ∧
      ((State.reset.setC 0 (bracketed twoFields)).getC 0).length ≤ defaultParams.cMax := by
  refine ⟨by decide, by decide, ?_, State.getC_setC_same _ _ _, by decide⟩
  unfold AiField.Valid AiField.Shaped AiField.Sized
  decide

theorem witness_Gs1Normalizes_prefix :
    isDigit 0x34 = true ∧ isDigit 0x31 = true ∧ 10 * dval 0x34 + dval 0x31 = 41 := by decide

theorem witness_Gs1AcceptsOnlyValidMessages :
    exec (.aiGs1 0 1) (withChars gtinMessage) = .next (after (.aiGs1 0 1) (withChars gtinMessage)) ∧
      (after (.aiGs1 0 1) (withChars gtinMessage)).st = 0 := by
  exact ⟨exec_after _ _, by decide⟩

theorem witness_Gs1Errors :
    (∃ c ∈ (withChars [0x5B, 0x7F]).getC 0, c.toNat < 32 ∨ 126 < c.toNat) ∧
      ((∀ c ∈ (withChars [0x7E, 0x20]).getC 0, 32 ≤ c.toNat ∧ c.toNat ≤ 126) ∧
        ((withChars [0x7E, 0x20]).getC 0).head? ≠ some openBracket) ∧
      ((withChars [0x5B, 0x31, 0x5B, 0x31]).getC 0 = [] ++ openBracket :: [0x31] ++ openBracket :: [0x31] ∧
        closeBracket ∉ [(0x31 : Char8)]) ∧
      ((withChars [0x5B, 0x31, 0x30, 0x5D, 0x5D]).getC 0 =
        [0x5B, 0x31, 0x30] ++ closeBracket :: [] ++ closeBracket :: [] ∧ openBracket ∉ ([] : List Char8)) ∧
      (withChars [0x5B, 0x31]).getC 0 = [] ++ openBracket :: [0x31] ∧
      ((withChars [0x5B, 0x31, 0x5D, 0x41]).getC 0 = [] ++ openBracket :: [0x31] ++ closeBracket :: [0x41] ∧
        [(0x31 : Char8)].length < 2) := by decide

/-- A field whose data are one character too long (R262), and a field without data (R255). -/
def badFields : List AiField := [{ tok := [0x31, 0x31], data := List.replicate 7 0x39 }, { tok := [0x31, 0x30], data := [] }]

theorem witness_Gs1Errors_fields :
    (∀ f ∈ badFields, f.Shaped) ∧ badFields.length ≤ defaultParams.aiMax ∧ (∀ f ∈ badFields, ¬f.Sized defaultParams) ∧
      (∀ f ∈ List.replicate 101 (AiField.mk [0x31, 0x30] [0x41]), f.Shaped) ∧
      defaultParams.aiMax < (List.replicate 101 (AiField.mk [0x31, 0x30] [0x41])).length := by
  unfold AiField.Shaped AiField.Sized
  refine ⟨by decide, by decide, by decide, ?_, by decide⟩
  intro f hf
  rw [List.eq_of_mem_replicate hf]
  decide

/-- The condition on the length rules at the bounds that R263 and R265 give AI 254 together. -/
theorem witness_Gs1Errors_lengths :
    1 ≤ 14 ∧ lengthOk true 254 13 = false ∧ lengthOk true 254 14 = true ∧ lengthOk true 254 20 = true ∧
      lengthOk true 254 21 = false := by decide

theorem witness_HibcFlag :
    (∃ c ∈ (withChars [0x61]).getC 0, c ∉ defaultParams.c39set) ∧
      ((∀ c ∈ (withChars (List.replicate 111 0x30)).getC 0, c ∈ defaultParams.c39set) ∧
        110 < ((withChars (List.replicate 111 0x30)).getC 0).length) ∧
      ((∀ c ∈ (withChars (List.replicate 110 0x30)).getC 0, c ∈ defaultParams.c39set) ∧
        ((withChars (List.replicate 110 0x30)).getC 0).length ≤ 110) ∧
      ((withChars [0x2B]).getC 0).head? = some 0x2B ∧ ((withChars [0x41]).getC 0).head? ≠ some 0x2B := by decide

theorem witness_TildeUnescapes :
    tilde ∉ (withChars [65, 66]).getC 0 ∧ (withChars [0x7E, 0x32, 0x35, 0x35]).getC 0 = [0xFF].flatMap escaped ∧
      ((withChars [0x7E, 0x5F]).getC 0 = tilde :: 0x5F :: [] ∧ 0x40 ≤ (0x5F : Char8).toNat ∧
        (0x5F : Char8).toNat ≤ 0x5F) ∧
      (withChars [0x7E, 0x32, 0x35, 0x36]).getC 0 = [0x7E, 0x32, 0x35, 0x36] ∧
      (withChars [0x7E, 0x39, 0x39]).getC 0 = [0x7E, 0x39, 0x39] ∧
      (withChars [0x7E, 0x7E, 0x40]).getC 0 = [0x7E, 0x7E, 0x40] ∧
      (withChars [0x41, 0x7E]).getC 0 = [0x41] ++ [tilde] := by decide

/-- R273's corner case `~~@` by the relation: the first `~` begins no escape, the second does. -/
theorem witness_TildeUnescapes_relation : Unescapes (chars [0x7E, 0x7E, 0x40]) (chars [0x7E, 0x00]) := by
  refine .literal ?_ (.control rfl .done)
  rintro (⟨a, rest, h, ha⟩ | ⟨a, b, d, rest, h, -⟩)
  · cases h
    exact absurd ha (by decide)
  · cases h


theorem witness_AiRecordReads :
    (after (.aiGs1 0 1) (withChars gtinMessage)).air.length ≤ defaultParams.aiMax ∧
      (after (.aiGs1 0 1) (withChars gtinMessage)).air[1]? =
        some { value := 10, aiLoc := 16, dataLoc := 18, dataLen := 6 } ∧
      State.reset.air.length ≤ (State.reset.getX 2).toNat := by decide

theorem witness_EncodeReachesEnd :
    1 ≤ defaultParams.dcIso2AlnRun ∧ DcMode.iso ≠ .alp ∧
      ((withChars [0x61, 0x5F]).getX 1).toNat ≤ ((withChars [0x61, 0x5F]).getC 0).length ∧
      (∀ c ∈ ((withChars [0x61, 0x5F]).getC 0).drop ((withChars [0x61, 0x5F]).getX 1).toNat,
        isoEncodable defaultDcCodes c = true) ∧
      ((withChars [0x61, 0x5F]).getB 0).bits.length + (8 + defaultDcCodes.toNumW) *
        (3 * (((withChars [0x61, 0x5F]).getC 0).length - ((withChars [0x61, 0x5F]).getX 1).toNat) + 3)
        ≤ defaultParams.bsMaxBits ∧
      compact defaultParams .num (chars [0x41]) =
        .ok { bits := bits [0, 0, 0, 0, 1, 0, 0, 0, 0, 0], mode := .aln, left := [] } := by decide

/-- The example of R299, derived by the rules: a pair, the latch, a letter. -/
theorem witness_EncodeFollowsRules :
    Encodes defaultParams .num (chars [0x31, 0x32, 0x41])
      (bits [0, 0, 1, 0, 1, 0, 1, 0, 0, 0, 0, 1, 0, 0, 0, 0, 0]) .aln :=
  .pair rfl rfl (by decide) (.numToAln (.inl (by decide)) (.alnChar rfl rfl (.inl rfl) (.done .aln)))

/-- No rule encodes the character 0x80 in ALPHA-only mode (R297). -/
theorem witness_EncodeFollowsRules_invalid :
    ¬∃ b m, Encodes defaultParams .alp (chars [0x80]) b m := by
  rintro ⟨b, m, h⟩
  cases h with
  | toNum h => simp at h
  | digit h => simp at h
  | sep h => simp at h
  | alpLetter h => exact absurd h (by decide)
  | alpDigit h => exact absurd h (by decide)
  | alpEnd h => exact absurd h (by decide)

/-- The other two conditions: a start beyond the end, a stream with no room. -/
theorem witness_EncodeFollowsRules_bounds :
    (State.reset.getC 0).length < ((regs 1 0).getX 1).toNat ∧
      defaultParams.bsMaxBits < ((fillB State.reset 65520).getB 3).bits.length +
        (bits [0, 0, 1, 0, 1, 0, 1, 0, 0, 0, 0, 1, 0, 0, 0, 0, 0]).length := by
  rw [fillB_length]
  decide

theorem witness_PlainStringsEncode :
    (withChars [0x30, 0x39]).getX 1 = 0 ∧ (withChars [0x30, 0x39]).cfg.dcCodes = defaultDcCodes ∧
      1 ≤ defaultParams.dcIso2AlnRun ∧
      (((withChars [0x30, 0x39]).getC 0).length = 2 * 1 ∧ (∀ c ∈ (withChars [0x30, 0x39]).getC 0, isDigit c = true) ∧
        ((withChars [0x30, 0x39]).getB 0).bits.length + 7 * 1 + 7 ≤ defaultParams.bsMaxBits) ∧
      ((withChars [0x30, 0x39, 0x31]).getC 0 = [0x30, 0x39] ++ [0x31] ∧ [(0x30 : Char8), 0x39].length = 2 * 1) ∧
      ((withChars [0x39, 0x1D]).getC 0 = [0x39, 0x1D] ∧ (withChars [0x1D, 0x39]).getC 0 = [0x1D, 0x39]) ∧
      (∀ c ∈ (withChars [0x5A, 0x2A, 0x2F]).getC 0, isUpper c = true ∨ c = 0x2A ∨ (0x2C ≤ c.toNat ∧ c.toNat ≤ 0x2F)) ∧
      (∀ c ∈ (withChars [0x61, 0x7A]).getC 0, isLower c = true) ∧
      ((∀ c ∈ chars [0x5A, 0x39], isUpper c = true ∨ isDigit c = true) ∧
        (withChars [0x5A, 0x39, 0x1D]).getC 0 = chars [0x5A, 0x39] ++ [0x1D]) := by decide

theorem witness_DataBarCap :
    (exec (.dcEnc 1 0 0 .num .cc) (withBits State.reset (List.replicate 252 0)) =
        .next (after (.dcEnc 1 0 0 .num .cc) (withBits State.reset (List.replicate 252 0))) ∧
      (after (.dcEnc 1 0 0 .num .cc) (withBits State.reset (List.replicate 252 0))).st = 0 ∧
      ((after (.dcEnc 1 0 0 .num .cc) (withBits State.reset (List.replicate 252 0))).getB 0).bits.length ≤ 252) ∧
      252 < ((after (.dcEnc 1 0 0 .num .cc) (withBits State.reset (List.replicate 253 0))).getB 0).bits.length ∧
      FailsWith (.dcEnc 1 0 0 .num .cc) (regs 1 0) .outOfRange := by
  refine ⟨⟨exec_after _ _, by decide +kernel, by decide +kernel⟩, by decide +kernel, rfl⟩

theorem witness_TargetAndLevel :
    (2 : BitVec 2).toNat < 3 ∧
      (∃ e ∈ capacityTable .a 2, ((withBits State.reset (List.replicate 197 0)).getB 0).bits.length ≤ e) ∧
      ∀ e ∈ capacityTable .a 2, e < ((withBits State.reset (List.replicate 198 0)).getB 0).bits.length := by
  decide +kernel

theorem witness_TargetAndLevel_reserved : 3 ≤ (3 : BitVec 2).toNat := by decide

theorem witness_PadToTargetAndMode :
    ((withBits (regs 1 0) [0, 1]).getX 1).toNat < ((withBits (regs 1 0) [0, 1]).getB 0).bits.length ∧
      defaultParams.bsMaxBits < ((regs 65537 0).getX 1).toNat ∧
      (((withBits (regs 2 0) [0, 1]).getB 0).bits.length = ((withBits (regs 2 0) [0, 1]).getX 1).toNat ∧
        ((withBits (regs 2 0) [0, 1]).getX 1).toNat ≤ defaultParams.bsMaxBits) ∧
      (((withBits (regs 65536 0) [0, 1]).getB 0).bits.length < ((withBits (regs 65536 0) [0, 1]).getX 1).toNat ∧
        ((withBits (regs 65536 0) [0, 1]).getX 1).toNat ≤ defaultParams.bsMaxBits) := by decide

theorem witness_RunLengthRow :
    (∀ c ∈ (withChars [0x30, 0x39]).getC 0, isDigit c = true) ∧
      ({ State.reset with rows := List.replicate 127 (Row.mk [] 0) }).rows.length < defaultParams.rowMax ∧
      (((withChars [0x30, 0x39]).getC 0).map dval).sum ≤ defaultParams.rowLenMax ∧
      ((withChars [0x30, 0x39]).getC 0)[1]? = some 0x39 ∧ 8 < dval 0x39 := by decide +kernel

theorem witness_FourStateRows :
    (∀ c ∈ (withChars [0x30, 0x33]).getC 0, 0x30 ≤ c.toNat ∧ c.toNat ≤ 0x33) ∧
      ({ State.reset with rows := List.replicate 125 (Row.mk [] 0) }).rows.length + 3 ≤ defaultParams.rowMax ∧
      2 * ((fillC 2048).getC 3).length ≤ defaultParams.rowLenMax := by
  refine ⟨by decide, by decide +kernel, by rw [fillC_length]; decide⟩

theorem witness_RowReads :
    fourStore.rows.length ≤ defaultParams.rowMax ∧
      (∃ r, fourStore.rows[2]? = some r ∧ r.mods.length ≤ defaultParams.rowLenMax ∧ r.mods[7]? = some .space) := by
  refine ⟨by decide, { mods := [.bar, .space, .space, .space, .bar, .space, .space, .space], h := 8 }, ?_⟩
  decide

theorem witness_SymbolRowErrors :
    (∃ c ∈ (withChars [0x3A]).getC 0, isDigit c = false) ∧
      ({ State.reset with rows := List.replicate 128 (Row.mk [] 0) }).rows.length = defaultParams.rowMax ∧
      defaultParams.rowLenMax < (((State.reset.setC 0 (List.replicate 456 0x39)).getC 0).map dval).sum ∧
      (∃ c ∈ (withChars [0x34]).getC 0, c.toNat < 0x30 ∨ 0x33 < c.toNat) ∧
      defaultParams.rowMax < ({ State.reset with rows := List.replicate 126 (Row.mk [] 0) }).rows.length + 3 ∧
      defaultParams.rowLenMax < 2 * ((State.reset.setC 0 (List.replicate 2049 0x30)).getC 0).length ∧
      State.reset.rows.length ≤ (State.reset.getX 2).toNat ∧
      (∃ r, fourStore.rows[0]? = some r ∧ r.mods.length ≤ (8 : BitVec 16).toNat) := by
  refine ⟨by decide, by decide +kernel, by decide +kernel, by decide, by decide +kernel, by decide +kernel, by decide,
    { mods := [.bar, .space, .bar, .space, .space, .space, .space, .space], h := 8 }, by decide⟩

end Sys2Proof.Tests
end

section
/-! What one host move does to a step (R11, R24, R74), and the step that issues a command word. -/

namespace Sys2Proof.Machine

/-- A step takes the host's first move off its list and makes that move. -/
theorem step_of_host_cons {s : State} {m : HostMove} {rest : List HostMove} (h : s.host = m :: rest) :
    step s = hostMove m (s.takeMove rest) := by
  simp only [step, h]

/-- Running a word that decodes is executing its command. -/
theorem runWord_of_decode_ok {w : Word} {i : Instr} (h : decode w = .ok i) (s : State) : runWord w s = exec i s := by
  simp only [runWord, h]

/-- Settles O5: the move taken is `.issue w`, and running `w` is executing `i`. -/
theorem stepRunsDecodedInstruction : Obligations.StepRunsDecodedInstruction := by
  intro s w rest i hhost hdecode
  calc step s = runWord w (s.takeMove rest) := step_of_host_cons hhost
    _ = exec i { s with host := rest } := runWord_of_decode_ok hdecode _

end Sys2Proof.Machine
end

section
/-! The default parameters. The alphabets stand as tables of consecutive codes, so one lemma about such a table gives the
code of every character in it; the punctuation sets stand as association lists, so one lemma about `lookup` does the same for
them. -/

namespace Sys2Proof.Machine

theorem isDigit_iff {c : Char8} : isDigit c = true ↔ 0x30 ≤ c.toNat ∧ c.toNat ≤ 0x39 := by simp [isDigit]

theorem isUpper_iff {c : Char8} : isUpper c = true ↔ 0x41 ≤ c.toNat ∧ c.toNat ≤ 0x5A := by simp [isUpper]

theorem isLower_iff {c : Char8} : isLower c = true ↔ 0x61 ≤ c.toNat ∧ c.toNat ≤ 0x7A := by simp [isLower]

theorem isUpper_eq_false_of_isLower {c : Char8} (h : isLower c = true) : isUpper c = false := by
  rw [Bool.eq_false_iff, ne_eq, isUpper_iff]
  rw [isLower_iff] at h
  omega

/-! Tables of consecutive codes. -/

/-- In a table of the consecutive codes from `base` on, the code of `c` is `base` plus the place of `c`. -/
theorem alphabetCode_of_consecutive {w n : Nat} {table : Vector (BitVec w) n} (base : Nat)
    (hcodes : ∀ i : Fin n, table[i].toNat = base + i.val) {first : Nat} {c : Char8} (hlt : c.toNat - first < n) :
    alphabetCode table first c = msbBits (base + (c.toNat - first)) w := by
  have hentry : table[c.toNat - first].toNat = base + (c.toNat - first) := hcodes ⟨c.toNat - first, hlt⟩
  rw [alphabetCode, codeBits, Vector.getElem?_eq_getElem hlt, Option.getD_some, hentry]

/-- R303. -/
theorem defaultDcCodes_digitBits {c : Char8} (h : isDigit c = true) :
    defaultDcCodes.digitBits c = msbBits (c.toNat - 43) 5 := by
  obtain ⟨hlow, hhigh⟩ := isDigit_iff.mp h
  rw [DcCodes.digitBits, alphabetCode_of_consecutive 5 (by decide) (by omega)]
  congr 1
  omega

/-- R304, the capital letters. -/
theorem defaultDcCodes_isoLetterBits_of_isUpper {c : Char8} (h : isUpper c = true) :
    defaultDcCodes.isoLetterBits c = msbBits (c.toNat - 1) 7 := by
  obtain ⟨hlow, hhigh⟩ := isUpper_iff.mp h
  rw [DcCodes.isoLetterBits, if_pos h, alphabetCode_of_consecutive 64 (by decide) (by omega)]
  congr 1
  omega

/-- R304, the small letters. -/
theorem defaultDcCodes_isoLetterBits_of_isLower {c : Char8} (h : isLower c = true) :
    defaultDcCodes.isoLetterBits c = msbBits (c.toNat - 7) 7 := by
  obtain ⟨hlow, hhigh⟩ := isLower_iff.mp h
  rw [DcCodes.isoLetterBits, isUpper_eq_false_of_isLower h, if_neg Bool.false_ne_true,
    alphabetCode_of_consecutive 90 (by decide) (by omega)]
  congr 1
  omega

/-- R305. -/
theorem defaultDcCodes_alpLetterBits {c : Char8} (h : isUpper c = true) :
    defaultDcCodes.alpLetterBits c = msbBits (c.toNat - 65) 5 := by
  obtain ⟨hlow, hhigh⟩ := isUpper_iff.mp h
  rw [DcCodes.alpLetterBits, alphabetCode_of_consecutive 0 (by decide) (by omega)]
  congr 1
  omega

/-! Punctuation sets. -/

/-- A code found in an association list is the one a formula gives, when the formula is right for every pair. -/
theorem codeBits_of_lookup {w : Nat} {l : List (Char8 × BitVec w)} {c : Char8} {v : BitVec w} {code : Char8 → Nat}
    (h : l.lookup c = some v) (hcodes : ∀ p ∈ l, p.2.toNat = code p.1) : codeBits v = msbBits (code c) w := by
  obtain ⟨before, after, rfl, -⟩ := List.lookup_eq_some_iff.mp h
  rw [codeBits, hcodes (c, v) (by simp)]

/-- R292, the ALPHANUMERIC punctuation. -/
theorem defaultDcCodes_isAlnPunct_iff {c : Char8} :
    defaultDcCodes.isAlnPunct c = true ↔ c = 0x2A ∨ (0x2C ≤ c.toNat ∧ c.toNat ≤ 0x2F) := by
  simp only [DcCodes.isAlnPunct, List.lookup_isSome_iff, defaultDcCodes, List.mem_cons, List.not_mem_nil, or_false,
    exists_eq_or_imp, exists_eq_left, beq_iff_eq]
  bv_omega

/-- R292, R304, the ISO punctuation. -/
theorem defaultDcCodes_isIsoPunct_iff {c : Char8} :
    defaultDcCodes.isIsoPunct c = true ↔ (0x20 ≤ c.toNat ∧ c.toNat ≤ 0x22) ∨ (0x25 ≤ c.toNat ∧ c.toNat ≤ 0x2F) ∨
      (0x3A ≤ c.toNat ∧ c.toNat ≤ 0x3F) ∨ c = 0x5F := by
  simp only [DcCodes.isIsoPunct, List.lookup_isSome_iff, defaultDcCodes, List.mem_cons, List.not_mem_nil, or_false,
    exists_eq_or_imp, exists_eq_left, beq_iff_eq]
  bv_omega

/-- R303, the capital letters: none of them is in the punctuation list, which `ALN6` looks at first. -/
theorem defaultDcCodes_alnBits_of_isUpper {c : Char8} (h : isUpper c = true) :
    defaultDcCodes.alnBits c = msbBits (c.toNat - 33) 6 := by
  obtain ⟨hlow, hhigh⟩ := isUpper_iff.mp h
  have hnot : ¬ defaultDcCodes.isAlnPunct c = true := by
    rw [defaultDcCodes_isAlnPunct_iff]
    bv_omega
  have hlookup : defaultDcCodes.alnPunct.lookup c = none := Option.not_isSome_iff_eq_none.mp hnot
  simp only [DcCodes.alnBits, hlookup]
  rw [alphabetCode_of_consecutive 32 (by decide) (by omega)]
  congr 1
  omega

/-- The `ALN6` code of an ALPHANUMERIC punctuation character as a formula (R303). -/
def alnPunctCode (c : Char8) : Nat := if c = 0x2A then 58 else c.toNat + 15

/-- The `ISO8` code of an ISO punctuation character as a formula (R304). -/
def isoPunctCode (c : Char8) : Nat :=
  if c = 0x20 then 252 else if c = 0x5F then 251 else if c.toNat ≤ 0x22 then c.toNat + 199
  else if c.toNat ≤ 0x2F then c.toNat + 197 else c.toNat + 187

/-- R303, the punctuation. -/
theorem defaultDcCodes_alnBits_of_isAlnPunct {c : Char8} (h : defaultDcCodes.isAlnPunct c = true) :
    defaultDcCodes.alnBits c = msbBits (alnPunctCode c) 6 := by
  obtain ⟨v, hv⟩ := Option.isSome_iff_exists.mp h
  have hcodes : ∀ p ∈ defaultDcCodes.alnPunct, p.2.toNat = alnPunctCode p.1 := by simp [defaultDcCodes, alnPunctCode]
  simp only [DcCodes.alnBits, hv]
  exact codeBits_of_lookup hv hcodes

/-- R304, the punctuation. -/
theorem defaultDcCodes_isoPunctBits {c : Char8} (h : defaultDcCodes.isIsoPunct c = true) :
    defaultDcCodes.isoPunctBits c = msbBits (isoPunctCode c) 8 := by
  obtain ⟨v, hv⟩ := Option.isSome_iff_exists.mp h
  have hcodes : ∀ p ∈ defaultDcCodes.isoPunct, p.2.toNat = isoPunctCode p.1 := by simp [defaultDcCodes, isoPunctCode]
  simp only [DcCodes.isoPunctBits, hv, Option.getD_some]
  exact codeBits_of_lookup hv hcodes

/-- R165: the digits, the capital letters, then `- . space $ / + %`. -/
theorem defaultC39set_characters :
    defaultC39set.length = 43 ∧ (∀ v : Fin 10, defaultC39set[v.val]? = some (BitVec.ofNat 8 (0x30 + v.val))) ∧
      (∀ v : Fin 26, defaultC39set[10 + v.val]? = some (BitVec.ofNat 8 (0x41 + v.val))) ∧
      defaultC39set.drop 36 = [0x2D, 0x2E, 0x20, 0x24, 0x2F, 0x2B, 0x25] := by
  decide

/-- Settles O17: the numbers, the latches and the four-state map are written out in the defaults; the alphabets follow from
the lemmas above. -/
theorem defaultParameters : Obligations.DefaultParameters := by
  refine ⟨rfl, Tests.defaultParams_ok, ?numbers, defaultC39set_characters, ?latches, fun c => ?codes, ?fourStates⟩
  case numbers => exact ⟨rfl, rfl, rfl, rfl, rfl, rfl, rfl, rfl, rfl, rfl, rfl, rfl⟩
  case latches => decide
  case codes =>
    exact ⟨defaultDcCodes_digitBits,
      fun h => ⟨defaultDcCodes_alnBits_of_isUpper h, defaultDcCodes_isoLetterBits_of_isUpper h,
        defaultDcCodes_alpLetterBits h⟩,
      defaultDcCodes_isoLetterBits_of_isLower, defaultDcCodes_isAlnPunct_iff, defaultDcCodes_alnBits_of_isAlnPunct,
      defaultDcCodes_isIsoPunct_iff, defaultDcCodes_isoPunctBits⟩
  case fourStates => decide

end Sys2Proof.Machine
end

section
/-! The safe states under each update (R47): what a value must meet for the state that takes it to stay safe. Then the
state after reset and the status registers. -/

namespace Sys2Proof.Machine

variable {s : State}

/-- A state is as safe as another one with the same parameters, buffers, streams, Reed-Solomon unit, records and rows. -/
theorem StateOk.of_same {t : State} (h : StateOk s) (hcfg : t.cfg = s.cfg := by rfl) (hc : t.c = s.c := by rfl)
    (hsy : t.sy = s.sy := by rfl) (hb : t.b = s.b := by rfl) (hrs : t.rs = s.rs := by rfl)
    (hair : t.air = s.air := by rfl) (hrows : t.rows = s.rows := by rfl) : StateOk t where
  params := by rw [hcfg]; exact h.params
  chars k := by simpa only [State.getC, hc, hcfg] using h.chars k
  syms j := by simpa only [State.getS, hsy, hcfg] using h.syms j
  bits b := by simpa only [State.getB, hb, hcfg] using h.bits b
  rs := by rw [hrs, hcfg]; exact h.rs
  air := by rw [hair, hcfg]; exact h.air
  rows := by rw [hrows, hcfg]; exact h.rows
  modules := by rw [hrows, hcfg]; exact h.modules

theorem StateOk.setC (h : StateOk s) {k : Ix} {cs : List Char8} (hcs : cs.length ≤ s.cfg.cMax) :
    StateOk (s.setC k cs) :=
  { h with
    chars := fun q => by
      rw [State.getC_setC]
      split
      · exact hcs
      · exact h.chars q }

theorem StateOk.setS (h : StateOk s) {j : BitVec 1} {vs : List Sym} (hvs : vs.length ≤ s.cfg.sMax) :
    StateOk (s.setS j vs) :=
  { h with
    syms := fun q => by
      rw [State.getS_setS]
      split
      · exact hvs
      · exact h.syms q }

theorem StateOk.setB (h : StateOk s) {b : Ix} {v : BitStream} (hv : v.Ok s.cfg) : StateOk (s.setB b v) :=
  { h with
    bits := fun q => by
      rw [State.getB_setB]
      split
      · exact hv
      · exact h.bits q }

theorem StateOk.setRs (h : StateOk s) {u : RsUnit} (hu : u.Ok s.cfg) : StateOk (s.setRs u) := { h with rs := hu }

theorem StateOk.setAir (h : StateOk s) {v : List AiRecord} (hv : v.length ≤ s.cfg.aiMax) : StateOk (s.setAir v) :=
  { h with air := hv }

theorem StateOk.setRows (h : StateOk s) {v : List Row} (hv : v.length ≤ s.cfg.rowMax)
    (hmods : ∀ r ∈ v, r.mods.length ≤ s.cfg.rowLenMax) : StateOk (s.setRows v) :=
  { h with rows := hv, modules := hmods }

theorem BitStream.fresh_ok {p : Params} (hp : p.Ok) : (BitStream.fresh p.bsCap0).Ok p := by
  obtain ⟨j, hj⟩ := hp.doubling
  have hcap : p.bsCap0 * 1 ≤ p.bsCap0 * 2 ^ j := Nat.mul_le_mul_left _ Nat.one_le_two_pow
  exact ⟨Nat.zero_le _, Nat.zero_le _, by simp only [BitStream.fresh]; omega, 0, by simp [BitStream.fresh]⟩

theorem RsUnit.empty_ok (p : Params) : RsUnit.empty.Ok p := rfl

/-! The state after reset. -/

@[simp] theorem State.getX_resetWith (p : Params) (r : RegNum) : (State.resetWith p).getX r = 0 := by
  simp [State.getX, State.resetWith]

@[simp] theorem State.getC_resetWith (p : Params) (k : Ix) : (State.resetWith p).getC k = [] := by
  simp [State.getC, State.resetWith]

@[simp] theorem State.getS_resetWith (p : Params) (j : BitVec 1) : (State.resetWith p).getS j = [] := by
  simp [State.getS, State.resetWith]

@[simp] theorem State.getB_resetWith (p : Params) (b : Ix) :
    (State.resetWith p).getB b = BitStream.fresh p.bsCap0 := by
  simp [State.getB, State.resetWith]

@[simp] theorem State.getL_resetWith (p : Params) (r : Ix) : (State.resetWith p).getL r = 0 := by
  simp [State.getL, State.resetWith]

/-- Reset of a running machine is the reset of a new one with its parameters, with the host's list put back. -/
theorem State.resetAll_eq_takeMove (s : State) : s.resetAll = (State.resetWith s.cfg).takeMove s.host := rfl

theorem stateOk_resetWith {p : Params} (hp : p.Ok) : StateOk (State.resetWith p) where
  params := hp
  chars k := by simp
  syms j := by simp
  bits b := by rw [State.getB_resetWith]; exact BitStream.fresh_ok hp
  rs := RsUnit.empty_ok p
  air := Nat.zero_le _
  rows := Nat.zero_le _
  modules r hr := absurd hr List.not_mem_nil

theorem StateOk.takeMove (h : StateOk s) (rest : List HostMove) : StateOk (s.takeMove rest) := h.of_same

theorem StateOk.resetAll (h : StateOk s) : StateOk s.resetAll := (stateOk_resetWith h.params).takeMove s.host

theorem StateOk.succeed (h : StateOk s) : StateOk s.succeed := h.of_same

theorem StateOk.raise (h : StateOk s) (k : ErrorKind) (w : Word) : StateOk (s.raise k w) := h.of_same

/-! The status registers (R25, R26, R370). -/

/-- The invariant is about `ST` and `EF` alone. -/
theorem StatusOk.of_same {t : State} (h : StatusOk s) (hst : t.st = s.st) (hef : t.ef = s.ef) : StatusOk t where
  code := by rw [hst]; exact h.code
  reserved := by rw [hef]; exact h.reserved
  remembered := by rw [hst, hef]; exact h.remembered

/-- A success needs only the reserved bits of `EF` zero. -/
theorem statusOk_of_st_eq_zero {t : State} (hst : t.st = 0) (hef : t.ef &&& ~~~0x1FE#32 = 0) : StatusOk t where
  code := by rw [hst]; exact Nat.zero_le _
  reserved := hef
  remembered h := absurd hst h

theorem failStatus_toNat (k : ErrorKind) : (failStatus k).toNat = k.code.toNat := by cases k <;> rfl

/-- The sticky bit of a kind is none of the reserved bits of `EF`. -/
theorem stickyBit_reserved (k : ErrorKind) : stickyBit k &&& ~~~0x1FE#32 = 0 := by cases k <;> rfl

theorem stickyBit_getLsbD (k : ErrorKind) : (stickyBit k).getLsbD k.code.toNat = true := by cases k <;> rfl

theorem StatusOk.raise (h : StatusOk s) (k : ErrorKind) (w : Word) : StatusOk (s.raise k w) where
  code := (failStatus_toNat k).trans_le k.code_bounds.2
  reserved := by
    show (s.ef ||| stickyBit k) &&& ~~~0x1FE#32 = 0
    rw [BitVec.and_or_distrib_right, h.reserved, stickyBit_reserved, BitVec.or_self]
  remembered _ := by
    show (s.ef ||| stickyBit k).getLsbD (failStatus k).toNat = true
    rw [failStatus_toNat, BitVec.getLsbD_or, stickyBit_getLsbD, Bool.or_true]

/-! The obligations about reset. -/

/-- Settles O16: reset leaves every store empty, `ST` and `EF` zero, and the Reed-Solomon unit as it came. -/
theorem invariantsAtReset : Obligations.InvariantsAtReset := fun _ hp =>
  ⟨stateOk_resetWith hp, statusOk_of_st_eq_zero rfl (BitVec.zero_and), .inl rfl⟩

/-- The control registers of the Reed-Solomon unit and of the counts read 0 after reset (R35, R46). -/
theorem State.readControl_resetWith (p : Params) {n : Nat} (hlow : 4 ≤ n) (hhigh : n ≤ 11) :
    (State.resetWith p).readControl n = 0 := by
  interval_cases n <;> rfl

/-- Settles O9: `SRST` and the reset input both leave the reset state of a machine with the same parameters, but for the
host's list. -/
theorem resetValues : Obligations.ResetValues := by
  intro s
  refine ⟨s.resetAll, rfl, rfl, ?_⟩
  rw [State.resetAll_eq_takeMove]
  exact ⟨State.getX_resetWith s.cfg, rfl, rfl, rfl, rfl, State.getC_resetWith s.cfg, State.getS_resetWith s.cfg,
    fun b => by simp [BitStream.fresh], State.getL_resetWith s.cfg,
    fun _ => State.readControl_resetWith s.cfg,
    fun _ => ⟨List.not_mem_nil, List.not_mem_nil⟩, rfl, rfl, rfl, rfl, rfl, rfl, rfl, rfl⟩

end Sys2Proof.Machine
end

section
/-! What the host reads (R35, R61, R63, R70, R73): the control registers, the spaces, their elements, and `err`. -/

namespace Sys2Proof.Machine

variable (s : State)

/-! The control registers (R35). -/

theorem State.readControl_dcmode : (s.readControl 3).toNat = (match s.dcmode with
    | .num => 0
    | .aln => 1
    | .iso => 2
    | .alp => 3) := by
  show s.dcmodeWord.toNat = _
  unfold State.dcmodeWord
  cases s.dcmode <;> rfl

/-- A count read through a 16-bit register (R31, R32). -/
theorem count_toNat {n : Nat} (h : n < 2 ^ 16) : ((BitVec.ofNat 16 n).setWidth 32).toNat = n := by
  rw [BitVec.toNat_setWidth_of_le (by decide), BitVec.toNat_ofNat, Nat.mod_eq_of_lt h]

theorem State.readControl_bscap (b : Ix) : s.readControl (12 + b.toNat) = s.bscap b := by
  match b with
  | 0 => rfl
  | 1 => rfl
  | 2 => rfl
  | 3 => rfl

theorem State.readControl_unlisted {n : Nat} (h : 17 ≤ n) : s.readControl n = 0 := by
  obtain ⟨k, rfl⟩ := Nat.exists_eq_add_of_le' h
  rfl

/-! The spaces (R61). -/

theorem Space.ofNumber_unlisted {n : Nat} (h : n = 6 ∨ n = 7 ∨ 22 ≤ n) : Space.ofNumber n = none := by
  obtain rfl | rfl | h := h
  · rfl
  · rfl
  · obtain ⟨k, rfl⟩ := Nat.exists_eq_add_of_le' h
    rfl

theorem Space.ofNumber_chars : ∀ k : Ix, Space.ofNumber k.toNat = some (.chars k) := by decide

theorem Space.ofNumber_bits : ∀ b : Ix, Space.ofNumber (8 + b.toNat) = some (.bits b) := by decide

theorem Space.ofNumber_cells : ∀ r : Ix, Space.ofNumber (12 + r.toNat) = some (.cells r) := by decide

theorem Space.ofNumber_syms : ∀ j : BitVec 1, Space.ofNumber (4 + j.toNat) = some (.syms j) := by decide

theorem State.elements_tables (h : s.rs.valid = true) :
    s.elements .rslog = s.rs.log.map .entry ∧ s.elements .rsalog = s.rs.alog.map .entry ∧
      s.elements .rsgen = s.rs.gen.map .sym ∧ s.elements .rsecc = s.rs.ecc.map .sym := by
  simp only [State.elements, h, if_true, and_self]

theorem State.elements_tables_invalid (h : s.rs.valid = false) :
    s.elements .rslog = [] ∧ s.elements .rsalog = [] ∧ s.elements .rsgen = [] ∧ s.elements .rsecc = [] := by
  simp [State.elements, h]

/-- A space has an element at exactly the indices below its length (R60, R70). -/
theorem State.memRead_eq_none_iff (sp : Space) (p : Nat) : s.memRead sp p = none ↔ s.spaceLen sp ≤ p :=
  List.getElem?_eq_none_iff

/-- A space that is a list of elements of one kind reads as that list. -/
theorem State.memRead_of_elements {α : Type} {sp : Space} {l : List α} {f : α → Element} (h : s.elements sp = l.map f)
    (p : Nat) : s.memRead sp p = (l[p]?).map f := by
  rw [State.memRead, h, List.getElem?_map]

theorem State.spaceLen_of_elements {α : Type} {sp : Space} {l : List α} {f : α → Element}
    (h : s.elements sp = l.map f) : s.spaceLen sp = l.length := by
  rw [State.spaceLen, h, List.length_map]

theorem State.elements_cells (r : Ix) :
    s.elements (.cells r) = (List.range 112).map fun i => .bit ((s.getL r).getLsbD i) := rfl

theorem State.spaceLen_cells (r : Ix) : s.spaceLen (.cells r) = 112 :=
  (s.spaceLen_of_elements (s.elements_cells r)).trans List.length_range

theorem State.memRead_cells (r : Ix) {p : Nat} (h : p < 112) :
    s.memRead (.cells r) p = some (.bit ((s.getL r).getLsbD p)) := by
  rw [s.memRead_of_elements (s.elements_cells r), List.getElem?_range h, Option.map_some]

/-- The table spaces have the lengths of R61 while `RSVALID` is 1. -/
theorem State.spaceLen_tables (h : s.rs.valid = true) (hok : s.rs.Ok s.cfg) :
    s.spaceLen .rslog = 2 ^ s.rs.m.toNat ∧ s.spaceLen .rsalog = 2 ^ s.rs.m.toNat ∧
      s.spaceLen .rsgen = s.rs.nsym.toNat + 1 ∧
      (s.spaceLen .rsecc = 0 ∨ s.spaceLen .rsecc = s.rs.nsym.toNat) := by
  obtain ⟨hlog, halog, hgen, hecc⟩ := s.elements_tables h
  rw [s.spaceLen_of_elements hlog, s.spaceLen_of_elements halog, s.spaceLen_of_elements hgen,
    s.spaceLen_of_elements hecc, List.length_eq_zero_iff]
  rw [RsUnit.Ok, if_pos h] at hok
  obtain ⟨-, -, -, -, -, hlogLen, halogLen, hgenLen, -, heccLen⟩ := hok
  exact ⟨hlogLen, halogLen, hgenLen, heccLen⟩

/-- `err` stands for a code other than 0 (R73, R381). -/
theorem State.err_iff : s.err = true ↔ s.st.toNat % 16 ≠ 0 := by
  rw [State.err, bne_iff_ne, ne_eq, ← BitVec.toNat_inj]
  simp [stCode]

/-- Settles O7: a lemma above for each register, number, length and element. -/
theorem hostReads : Obligations.HostReads := by
  intro s
  refine ⟨?registers, ?numbers, ?lengths, ?elements, s.err_iff⟩
  case registers =>
    refine ⟨rfl, rfl, rfl, s.readControl_dcmode, bitWord_toNat _, BitVec.toNat_setWidth_of_le (by decide),
      BitVec.toNat_setWidth_of_le (by decide), BitVec.toNat_setWidth_of_le (by decide),
      BitVec.toNat_setWidth_of_le (by decide), BitVec.toNat_setWidth_of_le (by decide), count_toNat, count_toNat,
      fun b h => ?_, rfl, fun _ => s.readControl_unlisted⟩
    rw [s.readControl_bscap]
    exact natWord_toNat _ h
  case numbers =>
    exact ⟨fun k => ⟨Space.ofNumber_chars k, Space.ofNumber_bits k, Space.ofNumber_cells k⟩, Space.ofNumber_syms,
      rfl, rfl, rfl, rfl, rfl, rfl, fun _ => Space.ofNumber_unlisted⟩
  case lengths =>
    refine ⟨fun k => ⟨s.spaceLen_of_elements rfl, s.spaceLen_of_elements rfl, s.spaceLen_cells k⟩,
      fun _ => s.spaceLen_of_elements rfl, s.spaceLen_of_elements rfl, s.spaceLen_of_elements rfl, fun h => ?_,
      s.spaceLen_tables⟩
    simp only [State.spaceLen, s.elements_tables_invalid h, List.length_nil, and_self]
  case elements =>
    refine ⟨s.memRead_eq_none_iff, fun k p => ⟨s.memRead_of_elements rfl p, s.memRead_of_elements rfl p,
      s.memRead_cells k⟩, fun _ => s.memRead_of_elements rfl, fun p => ⟨s.memRead_of_elements rfl p,
      s.memRead_of_elements rfl p⟩, fun h p => ?_⟩
    obtain ⟨hlog, halog, hgen, hecc⟩ := s.elements_tables h
    exact ⟨s.memRead_of_elements hlog p, s.memRead_of_elements halog p, s.memRead_of_elements hgen p,
      s.memRead_of_elements hecc p⟩

end Sys2Proof.Machine
end

section
/-! The capacity of a bit stream (R38, R71, R131): every way a stream takes new bits keeps its shape. -/

namespace Sys2Proof.Machine

/-- A capacity a stream can have (R38): `BS_CAP0` doubled some number of times, at most `BS_MAX_BITS / 8`. -/
def Params.Capacity (p : Params) (cap : Nat) : Prop := cap ≤ p.bsMaxBits / 8 ∧ ∃ j, cap = p.bsCap0 * 2 ^ j

/-- A stream is well shaped when its capacity is and the bits fit both it and `BS_MAX_BITS`. -/
theorem BitStream.ok_iff {p : Params} {v : BitStream} :
    v.Ok p ↔ v.bits.length ≤ 8 * v.cap ∧ v.bits.length ≤ p.bsMaxBits ∧ p.Capacity v.cap := Iff.rfl

theorem Params.Ok.capacity_bsCap0 {p : Params} (hp : p.Ok) : p.Capacity p.bsCap0 := (BitStream.fresh_ok hp).2.2

/-- The smallest doubling that holds a size within `BS_MAX_BITS` is again a capacity: `BS_MAX_BITS / 8` is a doubling
too, so the least one is not above it. -/
theorem growCap_capacity {p : Params} (hp : p.Ok) {cap size : Nat} (hcap : p.Capacity cap)
    (hsize : size ≤ p.bsMaxBits) : p.Capacity (growCap size cap size) ∧ size ≤ 8 * growCap size cap size := by
  obtain ⟨hle, i, rfl⟩ := hcap
  obtain ⟨top, htop⟩ := hp.doubling
  have hbase : 1 ≤ p.bsCap0 := hp.capacity
  have hpos : 1 ≤ p.bsCap0 * 2 ^ i := Nat.mul_pos hbase (Nat.two_pow_pos i)
  have hitop : i ≤ top := by
    refine (Nat.pow_le_pow_iff_right (by decide : 1 < 2)).mp (Nat.le_of_mul_le_mul_left ?_ hbase)
    omega
  have htopCap : p.bsCap0 * 2 ^ i * 2 ^ (top - i) = p.bsCap0 * 2 ^ top := by
    rw [Nat.mul_assoc, ← Nat.pow_add, Nat.add_sub_of_le hitop]
  obtain ⟨j, hgrow, hholds, hleast⟩ := growCap_spec size size _ hpos (size_le_double size _ hpos)
  have hj : j ≤ top - i := hleast _ (by rw [htopCap]; omega)
  have hgrowTop : growCap size (p.bsCap0 * 2 ^ i) size ≤ p.bsCap0 * 2 ^ top := by
    rw [hgrow, ← htopCap]
    exact Nat.mul_le_mul_left _ (Nat.pow_le_pow_right (by decide) hj)
  exact ⟨⟨by omega, i + j, by rw [hgrow, Nat.pow_add, Nat.mul_assoc]⟩, hholds⟩

/-- R131: a command that leaves a stream within `BS_MAX_BITS` leaves it well shaped. -/
theorem BitStream.Ok.withBits {p : Params} (hp : p.Ok) {v : BitStream} (h : v.Ok p) {bits : List Bool}
    (hbits : bits.length ≤ p.bsMaxBits) : (v.withBits bits).Ok p := by
  obtain ⟨hfit, -, hcap⟩ := BitStream.ok_iff.mp h
  rw [BitStream.ok_iff]
  by_cases hgrow : v.bits.length < bits.length
  · obtain ⟨hcap', hholds⟩ := growCap_capacity hp hcap hbits
    simp only [BitStream.withBits, hgrow, if_true]
    exact ⟨hholds, hbits, hcap'⟩
  · rw [withBits_cap_same v bits (by omega), withBits_bits]
    exact ⟨by omega, hbits, hcap⟩

/-- R71: so does a host write. -/
theorem hostCap_ok {p : Params} (hp : p.Ok) {v : BitStream} (h : v.Ok p) {bits : List Bool}
    (hbits : bits.length ≤ p.bsMaxBits) :
    BitStream.Ok p { bits := bits, cap := hostCap p.bsCap0 v.cap bits.length } := by
  obtain ⟨-, -, hcap⟩ := BitStream.ok_iff.mp h
  obtain ⟨hcap', hholds⟩ := growCap_capacity hp hp.capacity_bsCap0 hbits
  refine BitStream.ok_iff.mpr ⟨hholds.trans (Nat.mul_le_mul_left 8 (Nat.le_max_right _ _)), hbits, ?_⟩
  exact max_rec' p.Capacity hcap hcap'

end Sys2Proof.Machine
end

section
/-! The lengths of what `RS.INIT` builds and of what the encode commands store (R47, R213, R215, R217, R218). -/

namespace Sys2Proof.Machine

theorem tableWalk_lengths (m : Nat) (poly : Word) :
    (tableWalk m poly).log.length = 2 ^ m ∧ (tableWalk m poly).alog.length = 2 ^ m := by
  unfold tableWalk
  refine List.foldlRecOn (motive := fun t : Walk => t.log.length = 2 ^ m ∧ t.alog.length = 2 ^ m) _ _
    ⟨List.length_replicate, List.length_replicate⟩ fun t ht v _ => ?_
  simpa only [walkStep, List.length_set] using ht

/-- One turn of the generator's construction adds one coefficient, and the leading one is 1 again (R215). -/
theorem genStep_monic {t : Tables} {idx : Nat} {g h : List Sym} (hg : g ≠ []) (hstep : genStep t idx g = some h) :
    h.length = g.length + 1 ∧ h.getLast? = some 1 := by
  obtain ⟨g0, rest, rfl⟩ := List.exists_cons_of_ne_nil hg
  simp only [genStep] at hstep
  split at hstep
  · next h0 hs _ hcollect =>
    obtain rfl : h0 :: hs ++ [1] = h := by simpa using hstep
    have hlen : hs.length = rest.length := by simpa using collect_length hcollect
    exact ⟨by simp [hlen], List.getLast?_concat⟩
  · simp at hstep

/-- The generator of `n` roots has `n + 1` coefficients and is monic (R215). -/
theorem generator_monic {t : Tables} {index : Nat} : ∀ {n : Nat} {g : List Sym}, generator t index n = some g →
    g.length = n + 1 ∧ g.getLast? = some 1
  | 0, g, h => by
    obtain rfl : [1] = g := by simpa [generator] using h
    exact ⟨rfl, rfl⟩
  | n + 1, g, h => by
    unfold generator at h
    split at h
    · next g' hg' =>
      obtain ⟨hlen, -⟩ := generator_monic hg'
      have hne : g' ≠ [] := List.ne_nil_of_length_pos (by omega)
      simpa only [hlen] using genStep_monic hne h
    · simp at h

/-- What R212 asks of the operands of `RS.INIT`. -/
theorem rsOperandsOk_iff {p : Params} {poly nsym : Nat} :
    rsOperandsOk p poly nsym = true ↔ 2 ≤ poly ∧ poly.log2 ≤ p.rsMMax ∧ 1 ≤ nsym ∧ nsym ≤ p.rsNsymMax := by
  simp [rsOperandsOk, and_assoc]

/-- R47: `RS.INIT` on operands of R212 builds a unit whose registers hold its exponent and symbol count uncut, and whose
tables and generator have their lengths. -/
theorem rsBuild_ok {p : Params} (hp : p.Ok) {poly : Word} {nsym index : Nat} {u : RsUnit}
    (hops : rsOperandsOk p poly.toNat nsym = true) (hbuild : rsBuild poly nsym index = some u) : u.Ok p := by
  obtain ⟨hpoly, hm, hnsym, hnsymMax⟩ := rsOperandsOk_iff.mp hops
  have hfield := hp.field
  have hsymbols := hp.symbols
  simp only [rsBuild] at hbuild
  split at hbuild
  · next g hg =>
    obtain rfl := Option.some.inj hbuild
    obtain ⟨hlen, hlead⟩ := generator_monic hg
    obtain ⟨hlog, halog⟩ := tableWalk_lengths poly.toNat.log2 poly
    have hmPos : 1 ≤ poly.toNat.log2 := (Nat.le_log2 (by omega)).mpr hpoly
    have hsize : 2 ^ poly.toNat.log2 ≤ 2 ^ 16 := Nat.pow_le_pow_right (by decide) (by omega)
    have hmReg : (BitVec.ofNat 5 poly.toNat.log2).toNat = poly.toNat.log2 := Nat.mod_eq_of_lt (by omega)
    have hnsymReg : (BitVec.ofNat 16 nsym).toNat = nsym := Nat.mod_eq_of_lt (by omega)
    have hlogmodReg : (BitVec.ofNat 16 (2 ^ poly.toNat.log2 - 1)).toNat = 2 ^ poly.toNat.log2 - 1 :=
      Nat.mod_eq_of_lt (by omega)
    have hleadAt : g[nsym]? = some 1 := by
      rw [← hlead, List.getLast?_eq_getElem?, hlen, Nat.add_sub_cancel]
    simp only [RsUnit.Ok, if_true, tablesOf, hmReg, hnsymReg, hlogmodReg, true_and, true_or, and_true]
    exact ⟨hmPos, hm, hnsym, hnsymMax, hlog, halog, hlen, hleadAt⟩
  · simp at hbuild

/-- R218: the encoder fills the register, one cell for each check symbol. -/
theorem RsUnit.Ok.withEcc {p : Params} {u : RsUnit} (h : u.Ok p) (hvalid : u.valid = true) {data r : List Sym}
    (hr : u.encode data = some r) : RsUnit.Ok p { u with ecc := r } := by
  rw [RsUnit.Ok, if_pos hvalid] at h
  obtain ⟨hm, hmMax, hlogmod, hnsym, hnsymMax, hlog, halog, hlen, hlead, -⟩ := h
  have hstart : (List.replicate u.nsym.toNat (0 : Sym)).length ≤ u.gen.length := by
    rw [List.length_replicate]; omega
  have hecc : r.length = u.nsym.toNat := by simpa using lfsrRun_length hstart hr
  rw [RsUnit.Ok, if_pos hvalid]
  exact ⟨hm, hmMax, hlogmod, hnsym, hnsymMax, hlog, halog, hlen, hlead, .inr hecc⟩

end Sys2Proof.Machine
end

section
/-! The lengths of what unit AI writes (R253, R254, R267, R272, R273): no message grows beyond its buffer, and there is
one record for each token. -/

namespace Sys2Proof.Machine

/-- What a field takes in the message at least, not counting its `]`: the `[`, the token and the data. -/
def AiField.cost (f : AiField) : Nat := 1 + f.tok.length + f.data.length

/-- The characters all fields take. -/
def fieldsCost (fields : List AiField) : Nat := (fields.map AiField.cost).sum

@[simp] theorem fieldsCost_nil : fieldsCost [] = 0 := rfl

@[simp] theorem fieldsCost_cons (f : AiField) (fields : List AiField) :
    fieldsCost (f :: fields) = f.cost + fieldsCost fields := List.sum_cons

@[simp] theorem fieldsCost_append (fields more : List AiField) :
    fieldsCost (fields ++ more) = fieldsCost fields + fieldsCost more := by
  simp only [fieldsCost, List.map_append, List.sum_append]

theorem fieldsCost_map_tok (cur : Option AiField) (c : Char8) :
    fieldsCost (cur.map fun f => { f with tok := f.tok ++ [c] }).toList ≤ fieldsCost cur.toList + 1 := by
  cases cur <;> simp [AiField.cost]
  omega

theorem fieldsCost_map_data (cur : Option AiField) (c : Char8) :
    fieldsCost (cur.map fun f => { f with data := f.data ++ [c] }).toList ≤ fieldsCost cur.toList + 1 := by
  cases cur <;> simp [AiField.cost]
  omega

/-- Pass 2 makes no character that was not in the message (R254). -/
theorem extractFields_cost : ∀ (cs : List Char8) (inTok : Bool) (cur : Option AiField),
    fieldsCost (extractFields cs inTok cur) ≤ fieldsCost cur.toList + cs.length
  | [], _, _ => Nat.le_refl _
  | c :: cs, inTok, cur => by
    unfold extractFields
    rw [List.length_cons]
    split
    · have ih := extractFields_cost cs true (some { tok := [], data := [] })
      simp only [Option.toList_some, fieldsCost_cons, fieldsCost_nil, fieldsCost_append, AiField.cost,
        List.length_nil] at ih ⊢
      omega
    · split
      · have ih := extractFields_cost cs false cur
        omega
      · split
        · have ih := extractFields_cost cs true (cur.map fun f => { f with tok := f.tok ++ [c] })
          have hcur := fieldsCost_map_tok cur c
          omega
        · have ih := extractFields_cost cs false (cur.map fun f => { f with data := f.data ++ [c] })
          have hcur := fieldsCost_map_data cur c
          omega

/-- Pass 2 makes one field for each `[` (R254). -/
theorem extractFields_length : ∀ (cs : List Char8) (inTok : Bool) (cur : Option AiField),
    (extractFields cs inTok cur).length = cur.toList.length + cs.count openBracket
  | [], _, _ => rfl
  | c :: cs, inTok, cur => by
    unfold extractFields
    split
    · next hc => simp [extractFields_length cs, hc]; omega
    · next hc =>
      have hcount : (c :: cs).count openBracket = cs.count openBracket := List.count_cons_of_ne hc
      rw [hcount]
      split
      · exact extractFields_length cs _ _
      · split <;> rw [extractFields_length cs] <;> cases cur <;> rfl

/-- Pass 1 counts the `[` of the message; at depth 1 the open one counts too (R253). -/
theorem scanStructure_count : ∀ {cs : List Char8} {tok : Option (List Char8)} {n m : Nat},
    scanStructure cs tok n = .ok m → m = n + tok.toList.length + cs.count openBracket
  | [], none, n, m, h => by simpa [scanStructure] using h.symm
  | [], some _, _, _, h => by simp [scanStructure] at h
  | c :: cs, tok, n, m, h => by
    unfold scanStructure at h
    split at h
    · next hc =>
      cases tok with
      | none => rw [scanStructure_count h, hc]; simp; omega
      | some t => simp at h
    · next hc =>
      have hcount : (c :: cs).count openBracket = cs.count openBracket := List.count_cons_of_ne hc
      rw [hcount]
      split at h
      · cases tok with
        | none => simp at h
        | some t =>
          simp only at h
          split at h
          · rw [scanStructure_count h]; simp
          · simp at h
      · rw [scanStructure_count h]
        cases tok <;> rfl

/-- One turn of pass 4 writes the field after at most one marker, and one record (R267). -/
theorem rewriteField_lengths (t : Rewrite) (f : AiField) :
    (rewriteField t f).out.length ≤ t.out.length + f.cost ∧
      (rewriteField t f).recs.length = t.recs.length + 1 := by
  cases h : t.due <;> simp [rewriteField, AiField.cost, h]

theorem foldl_rewriteField_lengths : ∀ (fields : List AiField) (t : Rewrite),
    (fields.foldl rewriteField t).out.length ≤ t.out.length + fieldsCost fields ∧
      (fields.foldl rewriteField t).recs.length = t.recs.length + fields.length
  | [], _ => ⟨Nat.le_refl _, rfl⟩
  | f :: fields, t => by
    obtain ⟨hout, hrecs⟩ := rewriteField_lengths t f
    obtain ⟨hout', hrecs'⟩ := foldl_rewriteField_lengths fields (rewriteField t f)
    simp only [fieldsCost_cons, List.foldl_cons, List.length_cons]
    omega

/-- A message that the parser accepts passed the scan of pass 1 with at most `AI_MAX` tokens (R271). -/
theorem parseGs1_ok {p : Params} {msg : List Char8} {t : Rewrite} (h : parseGs1 p msg = .ok t) :
    t = rewriteAll (fieldsOf msg) ∧ ∃ ntok, scanStructure msg none 0 = .ok ntok ∧ ntok ≤ p.aiMax := by
  unfold parseGs1 at h
  split at h
  · simp at h
  · split at h
    · simp at h
    · split at h
      · simp at h
      · next ntok hscan =>
        split at h
        · simp at h
        · next hmax =>
          refine ⟨?_, ntok, hscan, by omega⟩
          split at h
          · simp at h
          · split at h
            · simpa using h.symm
            · simp at h

/-- The output of `AI.GS1` is no longer than the message, and there are at most `AI_MAX` records (R47). -/
theorem parseGs1_lengths {p : Params} {msg : List Char8} {t : Rewrite} (h : parseGs1 p msg = .ok t) :
    t.out.length ≤ msg.length ∧ t.recs.length ≤ p.aiMax := by
  obtain ⟨rfl, ntok, hscan, hmax⟩ := parseGs1_ok h
  obtain ⟨hout, hrecs⟩ := foldl_rewriteField_lengths (fieldsOf msg) { out := [], recs := [], due := false }
  have hcost : fieldsCost (fieldsOf msg) ≤ fieldsCost [] + msg.length := extractFields_cost msg false none
  have hcount : (fieldsOf msg).length = 0 + msg.count openBracket := extractFields_length msg false none
  have hntok : ntok = 0 + 0 + msg.count openBracket := scanStructure_count hscan
  simp only [fieldsCost_nil, List.length_nil] at hcost hout hrecs
  simp only [rewriteAll]
  omega

/-- The flag adds at most one character (R272). -/
theorem withFlag_length (msg : List Char8) : (withFlag msg).length ≤ msg.length + 1 := by
  unfold withFlag
  split <;> simp

/-- Unescaping makes no message longer (R273). -/
theorem unescape_length : ∀ (cs : List Char8) (skip : Nat), (unescape cs skip).length ≤ cs.length
  | [], _ => by simp [unescape]
  | _ :: cs, skip + 1 => by
    have := unescape_length cs skip
    simp only [unescape, List.length_cons]
    omega
  | c :: cs, 0 => by
    simp only [unescape]
    split
    · split
      · exact Nat.succ_le_succ (unescape_length cs _)
      · exact Nat.succ_le_succ (unescape_length cs 0)
    · exact Nat.succ_le_succ (unescape_length cs 0)

end Sys2Proof.Machine
end

section
/-! The lengths of the other commands' results: bytes, padded bits, rows (R150, R325, R344, R345). -/

namespace Sys2Proof.Machine

theorem toBytes_length (bits : List Bool) : (toBytes bits).length = sizeInBytes bits.length := by
  simp [toBytes]

theorem removeBits_length_le (bits : List Bool) (i c : Nat) : (removeBits bits i c).length ≤ bits.length := by
  simp only [removeBits, List.length_append, List.length_take, List.length_drop]
  omega

theorem padBits_length_le (d : DcCodes) (mode : DcMode) (bits : List Bool) (target : Nat) :
    (padBits d mode bits target).length ≤ target := List.length_take_le _ _

theorem expandRuns_length : ∀ (v : Bool) (cs : List Char8), (expandRuns v cs).length = runTotal cs
  | _, [] => rfl
  | v, c :: cs => by
    have ih : (expandRuns (!v) cs).length = (cs.map dval).sum := expandRuns_length (!v) cs
    simp [expandRuns, runTotal, ih]

theorem fourRow_length (map : Vector (Bool × Bool × Bool) 4) (row : Bool × Bool × Bool → Bool) (cs : List Char8) :
    (fourRow map row cs).length = 2 * cs.length := by
  simp [fourRow, List.length_flatMap, Nat.mul_comm]

/-- What R71 asks of the rows the host appends (log 13). -/
theorem rowsFit_iff {p : Params} {old new : List Row} :
    rowsFit p old new = true ↔ old.length + new.length ≤ p.rowMax ∧ ∀ r ∈ new, r.mods.length ≤ p.rowLenMax := by
  simp [rowsFit]

end Sys2Proof.Machine
end

section
/-! What one move can do, said once (R62, R71, R110, R370, R400): the invariants of R47 and of the status registers are
read off from this, with no second look at the commands. -/

namespace Sys2Proof.Machine

/-- `t` is `s` with the writes of one command other than `CLRERR` and `SRST`, or of one host write. The contents written
meet the bounds of R47 whenever those of `s` do. -/
inductive Writes (s : State) : State → Prop
  | nothing : Writes s s
  | register (r : RegNum) (v : Word) : Writes s (s.setX r v)
  | chars (k : Ix) (cs : List Char8) (h : StateOk s → cs.length ≤ s.cfg.cMax) : Writes s (s.setC k cs)
  | syms (j : BitVec 1) (vs : List Sym) (h : StateOk s → vs.length ≤ s.cfg.sMax) : Writes s (s.setS j vs)
  | bits (b : Ix) (v : BitStream) (h : StateOk s → v.Ok s.cfg) : Writes s (s.setB b v)
  | large (r : Ix) (v : Large) : Writes s (s.setL r v)
  | unit (u : RsUnit) (h : StateOk s → u.Ok s.cfg) : Writes s (s.setRs u)
  | message (k : Ix) (cs : List Char8) (recs : List AiRecord) (hcs : StateOk s → cs.length ≤ s.cfg.cMax)
      (hrecs : recs.length ≤ s.cfg.aiMax) : Writes s ((s.setC k cs).setAir recs)
  | rows (rs : List Row) (hrs : rs.length ≤ s.cfg.rowMax)
      (hmods : StateOk s → ∀ r ∈ rs, r.mods.length ≤ s.cfg.rowLenMax) : Writes s (s.setRows rs)
  | mode {t : State} (h : Writes s t) (m : DcMode) : Writes s (t.setMode m)

variable {s : State}

theorem Writes.stateOk {t : State} (h : Writes s t) (hs : StateOk s) : StateOk t := by
  induction h with
  | nothing => exact hs
  | register | large => exact hs.of_same
  | chars k cs h => exact hs.setC (h hs)
  | syms j vs h => exact hs.setS (h hs)
  | bits b v h => exact hs.setB (h hs)
  | unit u h => exact hs.setRs (h hs)
  | message k cs recs hcs hrecs => exact (hs.setC (hcs hs)).setAir hrecs
  | rows rs hrs hmods => exact hs.setRows hrs (hmods hs)
  | mode _ m ih => exact ih.of_same

/-- No such write reaches the status registers. -/
theorem Writes.status {t : State} (h : Writes s t) : t.st = s.st ∧ t.ef = s.ef := by
  induction h with
  | mode _ m ih => exact ih
  | _ => exact ⟨rfl, rfl⟩

/-! The results of commands. -/

/-- The state a command leaves, if it succeeds, has its writes and no others. -/
def ResultWrites (s : State) (result : Except ErrorKind State) : Prop := ∀ t, result = .ok t → Writes s t

theorem ResultWrites.ok {t : State} (h : Writes s t) : ResultWrites s (.ok t) := fun _ ht => Except.ok.inj ht ▸ h

theorem ResultWrites.error {k : ErrorKind} : ResultWrites s (.error k) := fun _ ht => nomatch ht

theorem ResultWrites.ite {c : Prop} [Decidable c] {a b : Except ErrorKind State} (ha : c → ResultWrites s a)
    (hb : ¬c → ResultWrites s b) : ResultWrites s (if c then a else b) := by
  split
  · exact ha ‹_›
  · exact hb ‹_›

/-- The tests of a command come first; the write is what is left when none of them holds. -/
theorem ResultWrites.unless {c : Prop} [Decidable c] {k : ErrorKind} {a : Except ErrorKind State}
    (h : ¬c → ResultWrites s a) : ResultWrites s (if c then .error k else a) := .ite (fun _ => .error) h

theorem withBuf_writes {sp : BitVec 3} {f : BufRef → Except ErrorKind State} (h : ∀ r, ResultWrites s (f r)) :
    ResultWrites s (withBuf sp f) := by
  unfold withBuf
  split
  · exact h _
  · exact .error

theorem bufClear_writes (r : BufRef) : Writes s (s.bufClear r) := by
  cases r with
  | chars k => exact .chars k [] fun _ => Nat.zero_le _
  | syms j => exact .syms j [] fun _ => Nat.zero_le _

theorem bufAppend_writes {r : BufRef} (v : Word) (h : s.bufLen r < r.max s.cfg) : Writes s (s.bufAppend r v) := by
  cases r with
  | chars k => exact .chars k _ fun _ => by rw [List.length_append]; exact h
  | syms j => exact .syms j _ fun _ => by rw [List.length_append]; exact h

theorem withBits_writes (b : Ix) {bits : List Bool} (h : StateOk s → bits.length ≤ s.cfg.bsMaxBits) :
    Writes s (s.setB b ((s.getB b).withBits bits)) :=
  .bits b _ fun hs => (hs.bits b).withBits hs.params (h hs)

/-- Bits that are no more than the old ones keep within `BS_MAX_BITS`. -/
theorem withBits_writes_of_length_le (b : Ix) {bits : List Bool} (h : bits.length ≤ (s.getB b).bits.length) :
    Writes s (s.setB b ((s.getB b).withBits bits)) :=
  withBits_writes b fun hs => h.trans (hs.bits b).2.1

theorem growTo_writes {b : Ix} {bits : List Bool} : ResultWrites s (growTo s b bits) := by
  rw [growTo_eq]
  exact .unless fun h => .ok (withBits_writes b fun _ => Nat.not_lt.mp h)

theorem checksum_writes {ra : RegNum} {k : Ix} {legal : Char8 → Bool} {result : List Char8 → Word} :
    ResultWrites s (checksum s ra k legal result) := .ite (fun _ => .ok (.register ..)) fun _ => .error

theorem readSym_writes {ra : RegNum} {v : Option Sym} : ResultWrites s (readSym s ra v) := by
  cases v with
  | some e => exact .ok (.register ..)
  | none => exact .error

theorem readRow_writes {ra rb : RegNum} {f : Row → Option Word} : ResultWrites s (readRow s ra rb f) := by
  rw [readRow_eq]
  split
  · exact .ok (.register ..)
  · exact .error

theorem rsEncode_writes (hvalid : s.rs.valid = true) {data : List Sym} : ResultWrites s (rsEncode s data) := by
  refine .ite (fun _ => ?_) fun _ => .error
  split
  · next r hr => exact .ok (.unit _ fun hs => hs.rs.withEcc hvalid hr)
  · exact .error

theorem dcAppend_writes {dst : Ix} {sym : Symbology} {t : Compacted} : ResultWrites s (dcAppend s dst sym t) := by
  unfold dcAppend
  rw [grown_eq]
  split
  · next v hv =>
    split at hv
    · simp at hv
    · next hbits =>
      obtain rfl := Except.ok.inj hv
      exact .unless fun _ => .ok (.mode (withBits_writes dst fun _ => Nat.not_lt.mp hbits) _)
  · exact .error

theorem appendRows_writes {new : List Row} (hlen : s.rows.length + new.length ≤ s.cfg.rowMax)
    (hmods : ∀ r ∈ new, r.mods.length ≤ s.cfg.rowLenMax) : Writes s (s.setRows (s.rows ++ new)) :=
  .rows _ (by rwa [List.length_append]) fun hs r hr => (List.mem_append.mp hr).elim (hs.modules r) (hmods r)

theorem clearRows_writes : Writes s (s.setRows []) :=
  .rows [] (Nat.zero_le _) fun _ _ hr => absurd hr List.not_mem_nil

/-- Every command but `CLRERR` and `SRST` ends through `finish` with a result that has such writes. -/
theorem exec_writes (i : Instr) (s : State) (hclrerr : i ≠ .clrerr) (hsrst : i ≠ .srst) :
    ∃ result, exec i s = finish s i result ∧ ResultWrites s result := by
  cases i with
  | clrerr => exact absurd rfl hclrerr
  | srst => exact absurd rfl hsrst
  | nop => exact ⟨_, rfl, .ok .nothing⟩
  | li | lui | bsSize | bsSizeb | lnCmp | aiCnt | dcEccl | dcGetm | srNrow => exact ⟨_, rfl, .ok (.register ..)⟩
  | ckMod10 | ckMod11 | ckMod43 | ckOpcc => exact ⟨_, rfl, checksum_writes⟩
  | srRlen | srGetm | srGeth => exact ⟨_, rfl, readRow_writes⟩
  | rsGete => exact ⟨_, rfl, readSym_writes⟩
  | rsGetg | rsGetl | rsGeta => exact ⟨_, rfl, .unless fun _ => readSym_writes⟩
  | lnGetb => exact ⟨_, rfl, .unless fun _ => .ok (.register ..)⟩
  | bsGet | aiGetr =>
    refine ⟨_, rfl, ?_⟩
    split
    · exact .ok (.register ..)
    · exact .error
  | dcTgt =>
    refine ⟨_, rfl, .unless fun _ => ?_⟩
    split
    · exact .ok (.register ..)
    · exact .error
  | lnClr | lnAdd | lnSub | lnShu | lnShd => exact ⟨_, rfl, .ok (.large ..)⟩
  | lnMul | lnLdec => exact ⟨_, rfl, .ite (fun _ => .ok (.large ..)) fun _ => .error⟩
  | lnSetb => exact ⟨_, rfl, .unless fun _ => .ok (.large ..)⟩
  | bclr => exact ⟨_, rfl, withBuf_writes fun r => .ok (bufClear_writes r)⟩
  | bput =>
    exact ⟨_, rfl, withBuf_writes fun r => .unless fun _ => .unless fun h => .ok (bufAppend_writes _ (Nat.not_le.mp h))⟩
  | bget =>
    refine ⟨_, rfl, withBuf_writes fun r => ?_⟩
    split
    · exact .ok (.register ..)
    · exact .error
  | blen => exact ⟨_, rfl, withBuf_writes fun r => .ok (.register ..)⟩
  | bsTob =>
    exact ⟨_, rfl, .unless fun h => .ok (.chars _ _ fun _ => (toBytes_length _).trans_le (Nat.not_lt.mp h))⟩
  | aiTilde src dst => exact ⟨_, rfl, .ok (.chars _ _ fun hs => (unescape_length _ 0).trans (hs.chars src))⟩
  | aiHibc src dst =>
    refine ⟨_, rfl, .unless fun _ => .unless fun hlen => .ok (.chars _ _ fun hs => ?_)⟩
    have hflag := withFlag_length (s.getC src)
    have hmax := hs.params.charsLow
    omega
  | aiGs1 src dst =>
    refine ⟨_, rfl, ?_⟩
    split
    · next t ht =>
      obtain ⟨hout, hrecs⟩ := parseGs1_lengths ht
      exact .ok (.message _ _ _ (fun hs => hout.trans (hs.chars src)) hrecs)
    · exact .error
  | bsClr => exact ⟨_, rfl, .ok (.bits _ _ fun hs => BitStream.fresh_ok hs.params)⟩
  | bsApb => exact ⟨_, rfl, growTo_writes⟩
  | bsApbs | bsIns => exact ⟨_, rfl, .unless fun _ => growTo_writes⟩
  | bsRem =>
    exact ⟨_, rfl, .unless fun _ => .unless fun _ => .ok (withBits_writes_of_length_le _ (removeBits_length_le ..))⟩
  | bsXor =>
    refine ⟨_, rfl, .unless fun _ => .ok (withBits_writes_of_length_le _ ?_)⟩
    rw [List.length_zipWith]
    exact Nat.min_le_left ..
  | bsSet => exact ⟨_, rfl, .unless fun _ => .ok (withBits_writes_of_length_le _ List.length_set.le)⟩
  | dcEnc =>
    refine ⟨_, rfl, .unless fun _ => ?_⟩
    split
    · exact dcAppend_writes
    · exact .error
  | dcPad =>
    refine ⟨_, rfl, .unless fun h => .ite (fun _ => .ok .nothing) fun _ =>
      .ok (.mode (withBits_writes _ fun _ => ?_) _)⟩
    exact (padBits_length_le ..).trans (Nat.not_lt.mp (not_or.mp h).1)
  | dcSetm => exact ⟨_, rfl, .ok (.mode .nothing _)⟩
  | rsInit =>
    refine ⟨_, rfl, .ite (fun hops => ?_) fun _ => .error⟩
    split
    · next u hu => exact .ok (.unit _ fun hs => rsBuild_ok hs.params hops hu)
    · exact .error
  | rsEncn =>
    exact ⟨_, rfl, .unless fun hvalid => .unless fun _ => rsEncode_writes (by simpa using hvalid)⟩
  | rsEncw => exact ⟨_, rfl, .unless fun hvalid => rsEncode_writes (by simpa using hvalid)⟩
  | srClr => exact ⟨_, rfl, .ok clearRows_writes⟩
  | srRle =>
    refine ⟨_, rfl, .unless fun _ => .unless fun hrows => .unless fun hmods => .ok (appendRows_writes ?_ ?_)⟩
    · exact Nat.not_le.mp hrows
    · simpa [expandRuns_length] using hmods
  | srFour =>
    refine ⟨_, rfl, .unless fun _ => .unless fun hrows => .unless fun hmods => .ok (appendRows_writes ?_ ?_)⟩
    · exact Nat.not_lt.mp hrows
    · simpa [fourRow_length] using hmods

/-! The results of moves. -/

/-- What one move of the host makes of a state: the writes of the host port, or a command's end, or reset. -/
inductive MoveResult (s : State) : State → Prop
  | write {t : State} (h : Writes s t) : MoveResult s t
  | success {t : State} (h : Writes s t) : MoveResult s t.succeed
  | failure (k : ErrorKind) (w : Word) : MoveResult s (s.raise k w)
  | clearEf : MoveResult s s.clearEf.succeed
  | reset : MoveResult s s.resetAll

theorem exec_result {i : Instr} {t : State} (h : exec i s = .next t) : MoveResult s t := by
  by_cases hclrerr : i = .clrerr
  · subst hclrerr
    obtain rfl : s.clearEf.succeed = t := Host.Outcome.next.inj h
    exact .clearEf
  by_cases hsrst : i = .srst
  · subst hsrst
    obtain rfl : s.resetAll.succeed = t := Host.Outcome.next.inj h
    exact .reset
  obtain ⟨result, hexec, hwrites⟩ := exec_writes i s hclrerr hsrst
  rw [hexec] at h
  obtain ⟨u, hu, rfl⟩ | ⟨k, -, rfl⟩ := finish_next h
  · exact .success (hwrites u hu)
  · exact .failure k _

theorem runWord_result {w : Word} {t : State} (h : runWord w s = .next t) : MoveResult s t := by
  unfold runWord at h
  split at h
  · exact exec_result h
  · obtain rfl : s.raise .illegalCommand w = t := Host.Outcome.next.inj h
    exact .failure _ _

theorem hostMove_result {m : HostMove} {t : State} (h : hostMove m s = .next t) : MoveResult s t := by
  cases m with
  | issue w => exact runWord_result h
  | reset =>
    obtain rfl : s.resetAll = t := Host.Outcome.next.inj h
    exact .reset
  | writeX r v =>
    obtain rfl : s.setX r v = t := Host.Outcome.next.inj h
    exact .write (.register r v)
  | writeMode m =>
    obtain rfl : s.setMode m = t := Host.Outcome.next.inj h
    exact .write (.mode .nothing m)
  | clearRows =>
    obtain rfl : s.setRows [] = t := Host.Outcome.next.inj h
    exact .write clearRows_writes
  | loadC k cs =>
    obtain ⟨hfits, rfl⟩ := hostLoad_next h
    exact .write (.chars k cs fun _ => of_decide_eq_true hfits)
  | loadS j vs =>
    obtain ⟨hfits, rfl⟩ := hostLoad_next h
    exact .write (.syms j vs fun _ => of_decide_eq_true hfits)
  | loadB b bits =>
    obtain ⟨hfits, rfl⟩ := hostLoad_next h
    exact .write (.bits b _ fun hs => hostCap_ok hs.params (hs.bits b) (of_decide_eq_true hfits))
  | appendRows rs =>
    obtain ⟨hfits, rfl⟩ := hostLoad_next h
    obtain ⟨hlen, hmods⟩ := rowsFit_iff.mp hfits
    exact .write (appendRows_writes hlen hmods)
  | pokeC k i v =>
    obtain ⟨-, rfl⟩ := hostPoke_next h
    exact .write (.chars k _ fun hs => List.length_set.trans_le (hs.chars k))
  | pokeS j i v =>
    obtain ⟨-, rfl⟩ := hostPoke_next h
    exact .write (.syms j _ fun hs => List.length_set.trans_le (hs.syms j))
  | pokeL r i v =>
    obtain ⟨-, rfl⟩ := hostPoke_next h
    exact .write (.large r _)

/-- A step is idle, or what its move makes of the state without it (R390). -/
theorem step_result {t : State} (h : step s = .next t) : t = s ∨ ∃ rest, MoveResult (s.takeMove rest) t := by
  unfold step at h
  split at h
  · exact .inl (Host.Outcome.next.inj h).symm
  · exact .inr ⟨_, hostMove_result h⟩

theorem MoveResult.stateOk {t : State} (h : MoveResult s t) (hs : StateOk s) : StateOk t := by
  cases h with
  | write h => exact h.stateOk hs
  | success h => exact (h.stateOk hs).succeed
  | failure k w => exact hs.raise k w
  | clearEf => exact hs.of_same
  | reset => exact hs.resetAll

theorem MoveResult.statusOk {t : State} (h : MoveResult s t) (hs : StatusOk s) : StatusOk t := by
  cases h with
  | write h => exact hs.of_same h.status.1 h.status.2
  | success h => exact statusOk_of_st_eq_zero rfl (by rw [State.succeed_ef, h.status.2]; exact hs.reserved)
  | failure k w => exact hs.raise k w
  | clearEf | reset => exact statusOk_of_st_eq_zero rfl BitVec.zero_and

/-- Settles O13: a step takes its move off the list, and what a move makes of a safe state is safe. -/
theorem stateOkKept : Obligations.StateOkKept := by
  intro s t hs hstep
  obtain rfl | ⟨rest, h⟩ := step_result hstep
  · exact hs
  · exact h.stateOk (hs.takeMove rest)

/-- Settles O14: likewise for the status registers, which only the end of a command and reset write. -/
theorem statusOkKept : Obligations.StatusOkKept := by
  intro s t hs hstep
  obtain rfl | ⟨rest, h⟩ := step_result hstep
  · exact hs
  · exact h.statusOk (hs.of_same rfl rfl)

end Sys2Proof.Machine
end

section
/-! What the host port writes (R71, R72): an offered load or poke completes, and its target alone takes the value. -/

namespace Sys2Proof.Machine

/-- A load within the maximum completes. -/
theorem hostLoad_of_fits {fits : Bool} (h : fits = true) (t : State) : hostLoad fits t = .next t := if_pos h

/-- A poke of an existing element completes. -/
theorem hostPoke_of_exists {existing : Bool} (h : existing = true) (t : State) : hostPoke existing t = .next t := if_pos h

/-- Writing one existing element of a buffer: the element takes the value, the length and the other elements stay. -/
theorem set_existing {α : Type} {xs : List α} {i : Nat} (v : α) (hi : i < xs.length) :
    (xs.set i v).length = xs.length ∧ (xs.set i v)[i]? = some v ∧ ∀ p, p ≠ i → (xs.set i v)[p]? = xs[p]? :=
  ⟨List.length_set, List.getElem?_set_self hi, fun _ hp => List.getElem?_set_ne hp.symm⟩

/-- Writing one cell of a large-number register (R39): that cell takes the value, the others stay. -/
theorem getLsbD_setCell (n : Large) (i : Nat) (v : Bool) {p : Nat} (hp : p < 112) :
    (setCell n i v).getLsbD p = if p = i then v else n.getLsbD p := by
  have hone : (1#112 <<< i).getLsbD p = decide (p = i) := by
    rw [BitVec.getLsbD_shiftLeft, BitVec.getLsbD_one, Bool.eq_iff_iff]
    simp only [Bool.and_eq_true, Bool.not_eq_true', decide_eq_true_eq, decide_eq_false_iff_not]
    omega
  cases v with
  | true =>
    rw [setCell, if_pos rfl, BitVec.getLsbD_or, hone]
    by_cases h : p = i <;> simp [h]
  | false =>
    rw [setCell, if_neg Bool.false_ne_true, BitVec.getLsbD_and, BitVec.getLsbD_not, hone, decide_eq_true hp]
    by_cases h : p = i <;> simp [h]

/-- The larger of two doublings of one capacity is the one doubled more often. -/
theorem max_double (cap0 i j : Nat) : max (cap0 * 2 ^ i) (cap0 * 2 ^ j) = cap0 * 2 ^ max i j :=
  (Monotone.map_max fun _ _ h => Nat.mul_le_mul_left cap0 (Nat.pow_le_pow_right (by decide) h)).symm

/-- The capacity after a host write (R71) is the least doubling of `BS_CAP0` that holds the bits and is not below the one
before. -/
theorem hostCap_spec {cap0 j0 size : Nat} (hcap0 : 1 ≤ cap0) :
    ∃ j, hostCap cap0 (cap0 * 2 ^ j0) size = cap0 * 2 ^ j ∧ size ≤ 8 * hostCap cap0 (cap0 * 2 ^ j0) size ∧ j0 ≤ j ∧
      ∀ j', j0 ≤ j' → size ≤ 8 * (cap0 * 2 ^ j') → j ≤ j' := by
  obtain ⟨j, hgrow, hholds, hleast⟩ := growCap_spec size size cap0 hcap0 (size_le_double size cap0 hcap0)
  have hcap : hostCap cap0 (cap0 * 2 ^ j0) size = cap0 * 2 ^ max j0 j := by
    rw [← max_double, ← hgrow]
    rfl
  exact ⟨max j0 j, hcap, hholds.trans (Nat.mul_le_mul_left 8 (Nat.le_max_right _ _)), Nat.le_max_left _ _,
    fun j' hj0 hsize => Nat.max_le.mpr ⟨hj0, hleast j' hsize⟩⟩

/-- R72: a move that is neither a command nor reset leaves all that only those may change. -/
theorem hostMove_protected {m : HostMove} {s t : State} (hissue : ∀ w, m ≠ .issue w) (hreset : m ≠ .reset)
    (h : hostMove m s = .next t) :
    t.cfg = s.cfg ∧ t.st = s.st ∧ t.ef = s.ef ∧ t.ecmd = s.ecmd ∧ t.rs = s.rs ∧ t.air = s.air ∧ t.host = s.host := by
  cases m with
  | issue w => exact absurd rfl (hissue w)
  | reset => exact absurd rfl hreset
  | writeX | writeMode | clearRows =>
    obtain rfl := Host.Outcome.next.inj h
    exact ⟨rfl, rfl, rfl, rfl, rfl, rfl, rfl⟩
  | loadC | loadS | loadB | appendRows =>
    obtain ⟨-, rfl⟩ := hostLoad_next h
    exact ⟨rfl, rfl, rfl, rfl, rfl, rfl, rfl⟩
  | pokeC | pokeS | pokeL =>
    obtain ⟨-, rfl⟩ := hostPoke_next h
    exact ⟨rfl, rfl, rfl, rfl, rfl, rfl, rfl⟩

/-- Settles O8: each write is one update of the state, whose target reads back the value and which leaves the rest. -/
theorem hostPortWrites : Obligations.HostPortWrites := by
  refine ⟨fun s => ⟨fun r v => ?writeX, fun k cs hcs => ?loadC, fun j vs hvs => ?loadS, fun k i v hi => ?pokeC,
    fun j i v hi => ?pokeS, fun r i v hi => ?pokeL, fun b bits j0 hok hbits hcap => ?loadB, fun _ => rfl,
    fun rs hrows hmods => hostLoad_of_fits (rowsFit_iff.mpr ⟨hrows, hmods⟩) _, rfl⟩,
    fun m s t => hostMove_protected⟩
  case writeX => exact ⟨_, rfl, rfl, s.getX_setX_same r v, fun q => s.getX_setX_other r q v⟩
  case loadC =>
    exact ⟨_, hostLoad_of_fits (decide_eq_true hcs) _, rfl, s.getC_setC_same k cs, fun q => s.getC_setC_other k q cs⟩
  case loadS =>
    exact ⟨_, hostLoad_of_fits (decide_eq_true hvs) _, rfl, s.getS_setS_same j vs, fun q => s.getS_setS_other j q vs⟩
  case pokeC =>
    obtain ⟨hlen, hget, hothers⟩ := set_existing v hi
    refine ⟨_, hostPoke_of_exists (decide_eq_true hi) _, rfl, ?_⟩
    rw [State.getC_setC_same]
    exact ⟨hlen, hget, hothers, fun q => s.getC_setC_other k q _⟩
  case pokeS =>
    obtain ⟨hlen, hget, hothers⟩ := set_existing v hi
    refine ⟨_, hostPoke_of_exists (decide_eq_true hi) _, rfl, ?_⟩
    rw [State.getS_setS_same]
    exact ⟨hlen, hget, hothers, fun q => s.getS_setS_other j q _⟩
  case pokeL =>
    refine ⟨_, hostPoke_of_exists (decide_eq_true hi) _, rfl, fun p hp => ?_, fun q => s.getL_setL_other r q _⟩
    rw [State.getL_setL_same, getLsbD_setCell _ _ _ hp]
  case loadB =>
    refine ⟨_, hostLoad_of_fits (decide_eq_true hbits) _, rfl, ?_⟩
    rw [State.getB_setB_same, hcap]
    exact ⟨rfl, fun q => s.getB_setB_other b q _, hostCap_spec hok.capacity⟩

end Sys2Proof.Machine
end

section
/-! The footprint of a command (R22, R62, R110): what each update of the state asks of a footprint that is to hold it, and
the command's result read through that, arm by arm. -/

namespace Sys2Proof.Machine

variable {f : Footprint} {s t : State}

/-! Updates inside a footprint. -/

theorem Within.refl : Within f s s where
  cfg := rfl
  x _ _ := rfl
  c _ _ := rfl
  sy _ _ := rfl
  b _ _ := rfl
  l _ _ := rfl
  mode _ := rfl
  tables _ := rfl
  ecc _ := rfl
  air _ := rfl
  rows _ := rfl
  host := rfl

theorem Within.setX (h : Within f s t) {r : RegNum} {v : Word} (hr : f.x = some r) : Within f s (t.setX r v) :=
  { h with x := fun q hq => (t.getX_setX_other r q v fun e => hq (e ▸ hr)).trans (h.x q hq) }

theorem Within.setC (h : Within f s t) {k : Ix} {cs : List Char8} (hk : f.c = some k) : Within f s (t.setC k cs) :=
  { h with c := fun q hq => (t.getC_setC_other k q cs fun e => hq (e ▸ hk)).trans (h.c q hq) }

theorem Within.setS (h : Within f s t) {j : BitVec 1} {vs : List Sym} (hj : f.sy = some j) : Within f s (t.setS j vs) :=
  { h with sy := fun q hq => (t.getS_setS_other j q vs fun e => hq (e ▸ hj)).trans (h.sy q hq) }

theorem Within.setB (h : Within f s t) {b : Ix} {v : BitStream} (hb : f.b = some b) : Within f s (t.setB b v) :=
  { h with b := fun q hq => (t.getB_setB_other b q v fun e => hq (e ▸ hb)).trans (h.b q hq) }

theorem Within.setL (h : Within f s t) {r : Ix} {v : Large} (hr : f.l = some r) : Within f s (t.setL r v) :=
  { h with l := fun q hq => (t.getL_setL_other r q v fun e => hq (e ▸ hr)).trans (h.l q hq) }

theorem Within.setMode (h : Within f s t) {m : DcMode} (hm : f.mode = true) : Within f s (t.setMode m) :=
  { h with mode := fun hf => absurd (hm.symm.trans hf) nofun }

theorem Within.setAir (h : Within f s t) {v : List AiRecord} (ha : f.air = true) : Within f s (t.setAir v) :=
  { h with air := fun hf => absurd (ha.symm.trans hf) nofun }

theorem Within.setRows (h : Within f s t) {v : List Row} (hr : f.rows = true) : Within f s (t.setRows v) :=
  { h with rows := fun hf => absurd (hr.symm.trans hf) nofun }

theorem Within.setRs (h : Within f s t) {u : RsUnit} (ht : f.tables = true) (he : f.ecc = true) :
    Within f s (t.setRs u) :=
  { h with
    tables := fun hf => absurd (ht.symm.trans hf) nofun
    ecc := fun hf => absurd (he.symm.trans hf) nofun }

/-- The check symbols alone. -/
theorem Within.setEcc (h : Within f s t) {r : List Sym} (he : f.ecc = true) :
    Within f s (t.setRs { t.rs with ecc := r }) :=
  { h with
    tables := fun hf => congrArg (fun u : RsUnit => { u with ecc := r }) (h.tables hf)
    ecc := fun hf => absurd (he.symm.trans hf) nofun }

/-- The status registers are outside every footprint: `CLRERR`, success and failure write nothing else. -/
theorem Within.clearEf (h : Within f s t) : Within f s t.clearEf := { h with }

theorem Within.succeed (h : Within f s t) : Within f s t.succeed := { h with }

theorem Within.raise (h : Within f s t) (k : ErrorKind) (w : Word) : Within f s (t.raise k w) := { h with }

/-! The results of commands. -/

/-- The state a command leaves, if it succeeds, is within the footprint. -/
def ResultWithin (f : Footprint) (s : State) (result : Except ErrorKind State) : Prop :=
  ∀ t, result = .ok t → Within f s t

theorem ResultWithin.ok (h : Within f s t) : ResultWithin f s (.ok t) := fun _ ht => Except.ok.inj ht ▸ h

theorem ResultWithin.error {k : ErrorKind} : ResultWithin f s (.error k) := fun _ ht => nomatch ht

theorem ResultWithin.ite {c : Prop} [Decidable c] {a b : Except ErrorKind State} (ha : ResultWithin f s a)
    (hb : ResultWithin f s b) : ResultWithin f s (if c then a else b) := by
  split
  · exact ha
  · exact hb

/-- A test that fails the command changes nothing; what is left is the result when the test does not hold. -/
theorem ResultWithin.unless {c : Prop} [Decidable c] {k : ErrorKind} {a : Except ErrorKind State}
    (h : ResultWithin f s a) : ResultWithin f s (if c then .error k else a) := .ite .error h

/-- A failure is within every footprint, so a command is when its result is. -/
theorem ResultWithin.finish {i : Instr} {result : Except ErrorKind State} (h : ResultWithin f s result)
    (hexec : finish s i result = .next t) : Within f s t := by
  obtain ⟨u, hu, rfl⟩ | ⟨k, -, rfl⟩ := finish_next hexec
  · exact (h u hu).succeed
  · exact Within.refl.raise k _

/-! The shared operations. -/

theorem withBuf_within {sp : BitVec 3} {g : BufRef → Except ErrorKind State}
    (h : ∀ r, bufRef sp = some r → ResultWithin f s (g r)) : ResultWithin f s (withBuf sp g) := by
  unfold withBuf
  split
  · next r hr => exact h r hr
  · exact .error

/-- The footprint of a write to the selected buffer. -/
def BufRef.footprint : BufRef → Footprint
  | .chars k => { c := some k }
  | .syms j => { sy := some j }

/-- The footprint table names the buffer that `sp` selects (R116). -/
theorem footprint_of_bufRef {sp : BitVec 3} {r : BufRef} (h : bufRef sp = some r) :
    footprint (.bclr sp) = r.footprint ∧ ∀ ra, footprint (.bput ra sp) = r.footprint := by
  have hsyms : ∀ v : BitVec 3, ¬v.toNat < 4 → v.toNat < 6 → v.setWidth 1 = BitVec.ofNat 1 (v.toNat - 4) := by decide
  unfold bufRef at h
  split at h
  · next hlow =>
    obtain rfl := Option.some.inj h
    have hfoot : footprint (.bclr sp) = { c := some (sp.setWidth 2) } := if_pos hlow
    exact ⟨hfoot, fun _ => hfoot⟩
  · next hlow =>
    split at h
    · next hhigh =>
      obtain rfl := Option.some.inj h
      have hfoot : footprint (.bclr sp) = { sy := some (sp.setWidth 1) } := if_neg hlow
      rw [hsyms sp hlow hhigh] at hfoot
      exact ⟨hfoot, fun _ => hfoot⟩
    · exact nomatch h

theorem bufClear_within (r : BufRef) : Within r.footprint s (s.bufClear r) := by
  cases r with
  | chars k => exact Within.refl.setC rfl
  | syms j => exact Within.refl.setS rfl

theorem bufAppend_within (r : BufRef) (v : Word) : Within r.footprint s (s.bufAppend r v) := by
  cases r with
  | chars k => exact Within.refl.setC rfl
  | syms j => exact Within.refl.setS rfl

theorem growTo_within {b : Ix} {bits : List Bool} (hb : f.b = some b) : ResultWithin f s (growTo s b bits) := by
  rw [growTo_eq]
  exact .unless (.ok (Within.refl.setB hb))

theorem checksum_within {ra : RegNum} {k : Ix} {legal : Char8 → Bool} {result : List Char8 → Word}
    (hr : f.x = some ra) : ResultWithin f s (checksum s ra k legal result) := .ite (.ok (Within.refl.setX hr)) .error

theorem readSym_within {ra : RegNum} {v : Option Sym} (hr : f.x = some ra) : ResultWithin f s (readSym s ra v) := by
  cases v with
  | some e => exact .ok (Within.refl.setX hr)
  | none => exact .error

theorem readRow_within {ra rb : RegNum} {g : Row → Option Word} (hr : f.x = some ra) :
    ResultWithin f s (readRow s ra rb g) := by
  rw [readRow_eq]
  split
  · exact .ok (Within.refl.setX hr)
  · exact .error

theorem rsEncode_within {data : List Sym} (he : f.ecc = true) : ResultWithin f s (rsEncode s data) := by
  refine .ite ?_ .error
  split
  · exact .ok (Within.refl.setEcc he)
  · exact .error

theorem dcAppend_within {dst : Ix} {sym : Symbology} {e : Compacted} (hb : f.b = some dst) (hm : f.mode = true) :
    ResultWithin f s (dcAppend s dst sym e) := by
  unfold dcAppend
  split
  · exact .unless (.ok ((Within.refl.setB hb).setMode hm))
  · exact .error

/-! The commands. -/

/-- Every command but `SRST` ends through `finish` with a result within its footprint. -/
theorem exec_within (i : Instr) (s : State) (hsrst : i ≠ .srst) :
    ∃ result, exec i s = finish s i result ∧ ResultWithin (footprint i) s result := by
  cases i with
  | srst => exact absurd rfl hsrst
  | nop => exact ⟨_, rfl, .ok .refl⟩
  | clrerr => exact ⟨_, rfl, .ok Within.refl.clearEf⟩
  | li | lui | bsSize | bsSizeb | lnCmp | aiCnt | dcEccl | dcGetm | srNrow =>
    exact ⟨_, rfl, .ok (Within.refl.setX rfl)⟩
  | lnGetb => exact ⟨_, rfl, .unless (.ok (Within.refl.setX rfl))⟩
  | ckMod10 | ckMod11 | ckMod43 | ckOpcc => exact ⟨_, rfl, checksum_within rfl⟩
  | srRlen | srGetm | srGeth => exact ⟨_, rfl, readRow_within rfl⟩
  | rsGete => exact ⟨_, rfl, readSym_within rfl⟩
  | rsGetg | rsGetl | rsGeta => exact ⟨_, rfl, .unless (readSym_within rfl)⟩
  | bsGet | aiGetr =>
    refine ⟨_, rfl, ?_⟩
    split
    · exact .ok (Within.refl.setX rfl)
    · exact .error
  | dcTgt =>
    refine ⟨_, rfl, .unless ?_⟩
    split
    · exact .ok (Within.refl.setX rfl)
    · exact .error
  | bget =>
    refine ⟨_, rfl, withBuf_within fun r _ => ?_⟩
    split
    · exact .ok (Within.refl.setX rfl)
    · exact .error
  | blen => exact ⟨_, rfl, withBuf_within fun r _ => .ok (Within.refl.setX rfl)⟩
  | bclr sp =>
    refine ⟨_, rfl, withBuf_within fun r hr => ?_⟩
    rw [(footprint_of_bufRef hr).1]
    exact .ok (bufClear_within r)
  | bput ra sp =>
    refine ⟨_, rfl, withBuf_within fun r hr => ?_⟩
    rw [(footprint_of_bufRef hr).2]
    exact .unless (.unless (.ok (bufAppend_within r _)))
  | bsTob => exact ⟨_, rfl, .unless (.ok (Within.refl.setC rfl))⟩
  | aiTilde => exact ⟨_, rfl, .ok (Within.refl.setC rfl)⟩
  | aiHibc => exact ⟨_, rfl, .unless (.unless (.ok (Within.refl.setC rfl)))⟩
  | aiGs1 =>
    refine ⟨_, rfl, ?_⟩
    split
    · exact .ok ((Within.refl.setC rfl).setAir rfl)
    · exact .error
  | bsClr => exact ⟨_, rfl, .ok (Within.refl.setB rfl)⟩
  | bsApb => exact ⟨_, rfl, growTo_within rfl⟩
  | bsApbs | bsIns => exact ⟨_, rfl, .unless (growTo_within rfl)⟩
  | bsRem => exact ⟨_, rfl, .unless (.unless (.ok (Within.refl.setB rfl)))⟩
  | bsXor | bsSet => exact ⟨_, rfl, .unless (.ok (Within.refl.setB rfl))⟩
  | dcEnc =>
    refine ⟨_, rfl, .unless ?_⟩
    split
    · exact dcAppend_within rfl rfl
    · exact .error
  | dcPad => exact ⟨_, rfl, .unless (.ite (.ok .refl) (.ok ((Within.refl.setB rfl).setMode rfl)))⟩
  | dcSetm => exact ⟨_, rfl, .ok (Within.refl.setMode rfl)⟩
  | lnClr | lnAdd | lnSub | lnShu | lnShd => exact ⟨_, rfl, .ok (Within.refl.setL rfl)⟩
  | lnMul | lnLdec => exact ⟨_, rfl, .ite (.ok (Within.refl.setL rfl)) .error⟩
  | lnSetb => exact ⟨_, rfl, .unless (.ok (Within.refl.setL rfl))⟩
  | rsInit =>
    refine ⟨_, rfl, .ite ?_ .error⟩
    split
    · exact .ok (Within.refl.setRs rfl rfl)
    · exact .error
  | rsEncn => exact ⟨_, rfl, .unless (.unless (rsEncode_within rfl))⟩
  | rsEncw => exact ⟨_, rfl, .unless (rsEncode_within rfl)⟩
  | srClr => exact ⟨_, rfl, .ok (Within.refl.setRows rfl)⟩
  | srRle | srFour => exact ⟨_, rfl, .unless (.unless (.unless (.ok (Within.refl.setRows rfl))))⟩

/-- Settles O12: a success is within the footprint because the result is, a failure because it writes status alone. -/
theorem commandsStayWithinFootprint : Obligations.CommandsStayWithinFootprint := by
  intro i s t hsrst hexec
  obtain ⟨result, hfinish, hwithin⟩ := exec_within i s hsrst
  exact hwithin.finish (hfinish ▸ hexec)

end Sys2Proof.Machine
end

section
/-! The sub-fields of the immediate (R91), read back from the word that holds them, and put back where they stood. -/

namespace Sys2Proof

/-- A sub-field of the immediate does not see the fields above it. -/
theorem extractLsb'_kword {op : BitVec 8} {ra rb : RegNum} {imm : BitVec 16} {start len : Nat}
    (h : start + len ≤ 16) : (kword op ra rb imm).extractLsb' start len = imm.extractLsb' start len :=
  BitVec.extractLsb'_append_eq_of_add_le h

section

variable (op : BitVec 8) (ra rb : RegNum) (imm : BitVec 16)

@[simp] theorem i0F_kword : i0F (kword op ra rb imm) = imm.extractLsb' 0 2 := extractLsb'_kword (by decide)

@[simp] theorem i1F_kword : i1F (kword op ra rb imm) = imm.extractLsb' 4 2 := extractLsb'_kword (by decide)

@[simp] theorem n6F_kword : n6F (kword op ra rb imm) = imm.extractLsb' 8 6 := extractLsb'_kword (by decide)

@[simp] theorem spF_kword : spF (kword op ra rb imm) = imm.extractLsb' 0 3 := extractLsb'_kword (by decide)

@[simp] theorem sF_kword : sF (kword op ra rb imm) = imm.extractLsb' 0 1 := extractLsb'_kword (by decide)

@[simp] theorem fF_kword : fF (kword op ra rb imm) = imm.extractLsb' 0 2 := extractLsb'_kword (by decide)

@[simp] theorem mdF_kword : mdF (kword op ra rb imm) = imm.extractLsb' 8 2 := extractLsb'_kword (by decide)

@[simp] theorem symF_kword : symF (kword op ra rb imm) = imm.extractLsb' 12 1 := extractLsb'_kword (by decide)

@[simp] theorem cmF_kword : cmF (kword op ra rb imm) = imm.extractLsb' 8 1 := extractLsb'_kword (by decide)

@[simp] theorem h8F_kword : h8F (kword op ra rb imm) = imm.extractLsb' 8 8 := extractLsb'_kword (by decide)

@[simp] theorem m2F_kword : m2F (kword op ra rb imm) = imm.extractLsb' 0 2 := extractLsb'_kword (by decide)

end

/-- A word is built from four fields exactly when they are its fields. -/
theorem kword_eq_iff {op : BitVec 8} {ra rb : RegNum} {imm : BitVec 16} {w : Word} :
    kword op ra rb imm = w ↔ op = opF w ∧ ra = raF w ∧ rb = rbF w ∧ imm = immF w := by
  constructor
  · rintro rfl
    simp
  · rintro ⟨rfl, rfl, rfl, rfl⟩
    exact kword_fields w

/-- Each layout of the immediate: the sub-fields of a word, put back with zeros between them, are its immediate under the
mask of their places. -/
theorem immF_layouts (w : Word) :
    0#13 ++ spF w = immF w &&& 0x0007 ∧ 0#14 ++ i0F w = immF w &&& 0x0003 ∧ 0#14 ++ fF w = immF w &&& 0x0003 ∧
    0#14 ++ m2F w = immF w &&& 0x0003 ∧ 0#15 ++ sF w = immF w &&& 0x0001 ∧
    0#2 ++ n6F w ++ 0#6 ++ i0F w = immF w &&& 0x3F03 ∧ 0#10 ++ i1F w ++ 0#2 ++ i0F w = immF w &&& 0x0033 ∧
    0#3 ++ symF w ++ 0#2 ++ mdF w ++ 0#2 ++ i1F w ++ 0#2 ++ i0F w = immF w &&& 0x1333 ∧
    0#7 ++ cmF w ++ 0#2 ++ i1F w ++ 0#2 ++ i0F w = immF w &&& 0x0133 ∧
    h8F w ++ 0#6 ++ i0F w = immF w &&& 0xFF03 := by
  and_intros
  all_goals
    apply BitVec.eq_of_getLsbD_eq
    intro i hi
    simp only [BitVec.getLsbD_append, BitVec.getLsbD_and, spF, i0F, fF, m2F, sF, n6F, i1F, symF, mdF, cmF, h8F, immF]
    interval_cases i <;> simp

end Sys2Proof
end

section
/-! The rows of the printed table (R94): a word matches at most the row of its opcode, and the decoder reads that row. -/

namespace Sys2Proof.Machine

open Sys2Proof.Laws

/-- The opcode of a word that matches a row is the row's: every mask covers it (R93). -/
theorem opF_eq_of_match {w : Word} {r : Word × Word} (hr : r ∈ opcodeRows) (hmatch : w &&& r.2 = r.1) :
    opF w = opF r.1 := by
  have hmask : ∀ r ∈ opcodeRows, opF r.2 = BitVec.allOnes 8 := by simp [opcodeRows, opF]
  calc opF w = opF w &&& opF r.2 := by rw [hmask r hr, BitVec.and_allOnes]
    _ = opF (w &&& r.2) := BitVec.extractLsb'_and.symm
    _ = opF r.1 := by rw [hmatch]

/-- No two rows have one opcode. -/
theorem opcodeRows_unique {r q : Word × Word} (hr : r ∈ opcodeRows) (hq : q ∈ opcodeRows) (h : opF r.1 = opF q.1) :
    r = q := by
  have hnodup : (opcodeRows.map fun r => opF r.1).Nodup := by simp [opcodeRows, opF]
  exact List.inj_on_of_nodup_map hnodup hr hq h

/-- The reserved values, by the fields that hold them. -/
theorem reservedValue_eq (w : Word) : reservedValue w =
    (decide (0x08 ≤ (opF w).toNat) && decide ((opF w).toNat ≤ 0x0B) && !spOk (spF w) ||
      decide ((opF w).toNat = 0x61) && !wcOk (i1F w)) := by
  have hop : (opF w).toNat = w.toNat / 2 ^ 24 := by
    simp [opF, Nat.shiftRight_eq_div_pow]
    omega
  have hsp : (spF w).toNat = w.toNat % 8 := by simp [spF]
  have hwc : (i1F w).toNat = w.toNat / 16 % 4 := by simp [i1F, Nat.shiftRight_eq_div_pow]
  simp only [reservedValue, spOk, wcOk, hop, hsp, hwc, ← decide_not]
  congr 3
  · simp
  · simp
    omega

/-- `i` is the command the decoder reads from `w` at the row `r`, before the row's tests: the word of `i` has the row's
pattern under the row's mask and the bits of `w` elsewhere, and `i` holds a reserved value exactly when `w` does. -/
structure RowReads (w : Word) (r : Word × Word) (i : Instr) : Prop where
  decode_eq : decode w = checked w r.2 r.1 i
  encode_eq : encode i = w &&& ~~~r.2 ||| r.1
  wellFormed_eq : i.wellFormed = !reservedValue w

/-- The decoder reads a word at the row of its opcode. -/
theorem exists_rowReads {w : Word} {r : Word × Word} (hr : r ∈ opcodeRows) (hop : opF w = opF r.1) :
    ∃ i, RowReads w r i := by
  have hra : ∀ x : RegNum, x &&& 15#4 = x := fun _ => BitVec.and_allOnes
  have himm : ∀ x : BitVec 16, x &&& 65535#16 = x := fun _ => BitVec.and_allOnes
  revert r
  simp only [opcodeRows, List.forall_mem_cons, List.not_mem_nil, IsEmpty.forall_iff, implies_true, and_true]
  and_intros
  all_goals
    intro hop
    refine ⟨_, by rw [decode, hop]; rfl, ?_, ?_⟩
    · simp [encode, kword_eq_iff, immF_layouts, opF, raF, rbF, immF, BitVec.extractLsb'_and, BitVec.extractLsb'_or,
        hra, himm]
    · rw [reservedValue_eq, hop]
      simp [opF, Instr.wellFormed]


/-- At the row whose pattern `w` has, the command read has the word `w`. -/
theorem RowReads.encode_of_match {w : Word} {r : Word × Word} {i : Instr} (h : RowReads w r i) (hmatch : w &&& r.2 = r.1) :
    encode i = w := by
  rw [h.encode_eq, ← hmatch]
  ext k hk
  simp only [BitVec.getElem_or, BitVec.getElem_and, BitVec.getElem_not]
  cases w[k] <;> simp

/-- A word that decodes matches a row (R93). -/
theorem matchesRow_of_decode_ok {w : Word} {i : Instr} (h : decode w = .ok i) : ∃ r ∈ opcodeRows, w &&& r.2 = r.1 := by
  unfold decode at h
  split at h
  case h_60 => exact nomatch h
  all_goals
    obtain ⟨hmatch, -, -⟩ := checked_ok h
    exact ⟨(_, _), by simp [opcodeRows], hmatch⟩

/-- A word that decodes to `i` matches a row that reads `i` from it. -/
theorem rowReads_of_decode_ok {w : Word} {i : Instr} (h : decode w = .ok i) :
    ∃ r ∈ opcodeRows, w &&& r.2 = r.1 ∧ RowReads w r i ∧ i.wellFormed = true := by
  obtain ⟨r, hr, hmatch⟩ := matchesRow_of_decode_ok h
  obtain ⟨j, hreads⟩ := exists_rowReads hr (opF_eq_of_match hr hmatch)
  obtain ⟨-, hwf, rfl⟩ := checked_ok (hreads.decode_eq ▸ h)
  exact ⟨r, hr, hmatch, hreads, hwf⟩

/-- Settles O2: the row that `w` matches fixes the bits in its mask, and the command read from `w` holds all the others. -/
theorem encodeDecode : Obligations.EncodeDecode := by
  intro w i h
  obtain ⟨r, -, hmatch, hreads, hwf⟩ := rowReads_of_decode_ok h
  exact ⟨hreads.encode_of_match hmatch, hwf⟩

/-- Settles O3: the decoder accepts at the row of the word's opcode, and refuses there only what the row's mask or a reserved
value excludes. -/
theorem decodeMatchesTable : Obligations.DecodeMatchesTable := by
  intro w
  constructor
  · rintro ⟨i, h⟩
    obtain ⟨r, hr, hmatch, hreads, hwf⟩ := rowReads_of_decode_ok h
    exact ⟨⟨r, hr, hmatch⟩, by simpa [hwf] using hreads.wellFormed_eq⟩
  · rintro ⟨⟨r, hr, hmatch⟩, hreserved⟩
    obtain ⟨i, hreads⟩ := exists_rowReads hr (opF_eq_of_match hr hmatch)
    have hwf : i.wellFormed = true := by simp [hreads.wellFormed_eq, hreserved]
    exact ⟨i, hreads.decode_eq.trans (checked_of hmatch hwf)⟩

end Sys2Proof.Machine
end

section
/-! The decoder on the word of a command: it selects the command's row and reads every operand back. -/

namespace Sys2Proof.Laws.EncodeMatchesRow

/-- The family holds of every command. -/
theorem all : ∀ i, Statement i
  | .nop => nop
  | .li .. => li ..
  | .lui .. => lui ..
  | .clrerr => clrerr
  | .srst => srst
  | .bclr .. => bclr ..
  | .bput .. => bput ..
  | .bget .. => bget ..
  | .blen .. => blen ..
  | .bsClr .. => bsClr ..
  | .bsApb .. => bsApb ..
  | .bsApbs .. => bsApbs ..
  | .bsIns .. => bsIns ..
  | .bsRem .. => bsRem ..
  | .bsXor .. => bsXor ..
  | .bsGet .. => bsGet ..
  | .bsSet .. => bsSet ..
  | .bsTob .. => bsTob ..
  | .bsSize .. => bsSize ..
  | .bsSizeb .. => bsSizeb ..
  | .ckMod10 .. => ckMod10 ..
  | .ckMod11 .. => ckMod11 ..
  | .ckMod43 .. => ckMod43 ..
  | .ckOpcc .. => ckOpcc ..
  | .lnClr .. => lnClr ..
  | .lnAdd .. => lnAdd ..
  | .lnSub .. => lnSub ..
  | .lnMul .. => lnMul ..
  | .lnShu .. => lnShu ..
  | .lnShd .. => lnShd ..
  | .lnCmp .. => lnCmp ..
  | .lnLdec .. => lnLdec ..
  | .lnGetb .. => lnGetb ..
  | .lnSetb .. => lnSetb ..
  | .rsInit .. => rsInit ..
  | .rsEncn .. => rsEncn ..
  | .rsEncw .. => rsEncw ..
  | .rsGete .. => rsGete ..
  | .rsGetg .. => rsGetg ..
  | .rsGetl .. => rsGetl ..
  | .rsGeta .. => rsGeta ..
  | .aiGs1 .. => aiGs1 ..
  | .aiHibc .. => aiHibc ..
  | .aiTilde .. => aiTilde ..
  | .aiCnt .. => aiCnt ..
  | .aiGetr .. => aiGetr ..
  | .dcEnc .. => dcEnc ..
  | .dcTgt .. => dcTgt ..
  | .dcEccl .. => dcEccl ..
  | .dcPad .. => dcPad ..
  | .dcGetm .. => dcGetm ..
  | .dcSetm .. => dcSetm ..
  | .srClr => srClr
  | .srRle .. => srRle ..
  | .srFour .. => srFour ..
  | .srNrow .. => srNrow ..
  | .srRlen .. => srRlen ..
  | .srGetm .. => srGetm ..
  | .srGeth .. => srGeth ..

end Sys2Proof.Laws.EncodeMatchesRow

namespace Sys2Proof.Machine

open Sys2Proof.Laws

/-- At the row of its opcode, the decoder reads from the word of `i` the command `i`. -/
theorem exists_row_reads_encode (i : Instr) : ∃ r ∈ opcodeRows,
    opF (encode i) = opF r.1 ∧ decode (encode i) = checked (encode i) r.2 r.1 i := by
  cases i
  all_goals
    refine ⟨(_, _), ?_, ?_, .trans (by rw [encode, decode, opF_kword]; rfl) (congrArg (checked _ _ _) ?_)⟩
    · simp [opcodeRows]
    · rw [encode, opF_kword]
      rfl
    · simp (disch := decide) only [raF_kword, rbF_kword, immF_kword, i0F_kword, i1F_kword, n6F_kword, spF_kword, sF_kword,
        fF_kword, mdF_kword, symF_kword, cmF_kword, h8F_kword, m2F_kword, BitVec.extractLsb'_append_eq_of_le,
        BitVec.extractLsb'_append_eq_right, BitVec.extractLsb'_eq_self, Nat.reduceSub, DcMode.ofCode_code,
        Symbology.ofCode_code, CompositeMode.ofCode_code, RecField.ofCode_code]

/-- Settles O1: the word of `i` matches a row, which is the one row of its opcode, and there the decoder reads `i`. -/
theorem decodeEncode : Obligations.DecodeEncode := by
  intro i hwf
  obtain ⟨r, hr, hop, hdecode⟩ := exists_row_reads_encode i
  obtain ⟨q, hq, hmatch⟩ := EncodeMatchesRow.all i
  obtain rfl : q = r := opcodeRows_unique hq hr ((opF_eq_of_match hq hmatch).symm.trans hop)
  exact hdecode.trans (checked_of hmatch hwf)

end Sys2Proof.Machine
end

section
/-! The step that issues a word that is no command (R95, R368). -/

namespace Sys2Proof.Machine

/-- Running a word that does not decode fails with `IllegalCommand`. -/
theorem runWord_of_decode_error {w : Word} {e : DecodeError} (h : decode w = .error e) (s : State) :
    runWord w s = .next (s.raise .illegalCommand w) := by
  simp only [runWord, h, illegalWord]

/-- Settles O6: the move taken is `.issue w`, and the failure of `w` writes the three status registers alone. -/
theorem illegalWordFails : Obligations.IllegalWordFails := by
  intro s w rest e hhost hdecode
  calc step s = runWord w (s.takeMove rest) := step_of_host_cons hhost
    _ = .next ((s.takeMove rest).raise .illegalCommand w) := runWord_of_decode_error hdecode _
    _ = .next { s with host := rest, st := 8, ef := s.ef ||| 0x100, ecmd := w } := rfl

end Sys2Proof.Machine
end

section
/-! The example words of the command rules (R112 to R349), each as the word of the command its example names. -/

namespace Sys2Proof.Machine

/-- The word of a well-formed command decodes to that command. -/
theorem decode_of_encode_eq {i : Instr} {w : Word} (hw : encode i = w) (hwf : i.wellFormed = true) : decode w = .ok i :=
  hw ▸ decodeEncode i hwf

/-- Settles O4: each word is the encoding of a well-formed command, and such a word decodes to its command. -/
theorem decodeSampleWords : Obligations.DecodeSampleWords := by
  refine ⟨?li, ?lui, ?bput, ?bget, ?bsApbs, ?ckMod10, ?lnCmp, ?rsInit, ?aiGetr, ?dcEnc, ?dcTgt, ?srGetm⟩
  all_goals exact decode_of_encode_eq rfl rfl

end Sys2Proof.Machine
end

section
/-! A command by its result (R110, R370, R372), and what a success leaves alone when its result is one update (R22,
R62). -/

namespace Sys2Proof.Machine

variable {s : State} {i : Instr}

/-- A command whose result is a state completes with it. -/
theorem exec_eq_of_ok {result : Except ErrorKind State} {t : State} (hexec : exec i s = finish s i result)
    (h : result = .ok t) : exec i s = .next t.succeed := by
  rw [hexec, h, finish_ok]

/-- A command whose result is an error kind fails with it. -/
theorem failsWith_of_error {result : Except ErrorKind State} {k : ErrorKind} (hexec : exec i s = finish s i result)
    (h : result = .error k) : FailsWith i s k := by
  rw [FailsWith, hexec, h, finish_error, State.raise_eq]

theorem onlyX_setX (ra : RegNum) (v : Word) : OnlyX s (s.setX ra v).succeed ra :=
  ⟨rfl, fun q hq => s.getX_setX_other ra q v hq⟩

theorem onlyC_setC (k : Ix) (cs : List Char8) : OnlyC s (s.setC k cs).succeed k :=
  ⟨rfl, fun q hq => s.getC_setC_other k q cs hq⟩

theorem onlyS_setS (j : BitVec 1) (vs : List Sym) : OnlyS s (s.setS j vs).succeed j :=
  ⟨rfl, fun q hq => s.getS_setS_other j q vs hq⟩

/-- A command that writes one register with a number, and nothing else. -/
theorem exists_onlyX_of_exec {ra : RegNum} {v : Word} {n : Nat} (hexec : exec i s = .next (s.setX ra v).succeed)
    (hv : v.toNat = n) : ∃ t, exec i s = .next t ∧ (t.getX ra).toNat = n ∧ OnlyX s t ra :=
  ⟨_, hexec, by rw [State.getX_succeed, State.getX_setX_same, hv], onlyX_setX ra v⟩

end Sys2Proof.Machine
end

section
/-! The SYS commands (R111 to R114). -/

namespace Sys2Proof.Machine

/-- `LUI` puts the immediate above the low half of the old value (R113). -/
theorem loadUpper_toNat (imm16 : BitVec 16) (v : Word) :
    (loadUpper imm16 v).toNat = imm16.toNat * 2 ^ 16 + v.toNat % 2 ^ 16 := by
  have hlow : (v.extractLsb' 0 16).toNat = v.toNat % 2 ^ 16 := by simp
  have hlt : v.toNat % 2 ^ 16 < 2 ^ 16 := Nat.mod_lt _ (by decide)
  rw [loadUpper, BitVec.toNat_append, hlow, ← Nat.shiftLeft_add_eq_or_of_lt hlt, Nat.shiftLeft_eq]

/-- A 16-bit immediate keeps its value in a register (R92). -/
theorem immWord_toNat (imm16 : BitVec 16) : (immWord imm16).toNat = imm16.toNat :=
  BitVec.toNat_setWidth_of_le (by decide)

/-- Settles O18: each command ends in a success whose result is at most one update of the state. -/
theorem sysCommandResults : Obligations.SysCommandResults := fun _ _ imm16 =>
  ⟨⟨_, rfl, rfl⟩, exists_onlyX_of_exec rfl (immWord_toNat imm16),
    exists_onlyX_of_exec rfl (loadUpper_toNat imm16 _), rfl⟩

end Sys2Proof.Machine
end

section
/-! The BUF commands (R116 to R120), on the buffer that the selector names: one rule for each outcome, for character and
symbol buffers alike. -/

namespace Sys2Proof.Machine

variable {s : State} {sp : BitVec 3} {r : BufRef} {ra rb : RegNum}

/-! The selector. -/

theorem withBuf_of_bufRef (h : bufRef sp = some r) (f : BufRef → Except ErrorKind State) : withBuf sp f = f r := by
  rw [withBuf, h]

theorem withBuf_of_reserved (h : 6 ≤ sp.toNat) (f : BufRef → Except ErrorKind State) :
    withBuf sp f = .error .illegalCommand := by
  rw [withBuf, bufRef_reserved sp h]

/-! Elements. -/

/-- There is nothing to read exactly from the length on. -/
theorem State.bufRead_eq_none_iff (s : State) (r : BufRef) (p : Nat) : s.bufRead r p = none ↔ s.bufLen r ≤ p := by
  cases r with
  | chars k => exact Option.map_eq_none_iff.trans List.getElem?_eq_none_iff
  | syms j => exact Option.map_eq_none_iff.trans List.getElem?_eq_none_iff

theorem State.bufRead_chars {k : Ix} {p : Nat} {v : Char8} (h : (s.getC k)[p]? = some v) :
    s.bufRead (.chars k) p = some (v.setWidth 32) := congrArg (Option.map _) h

theorem State.bufRead_syms {j : BitVec 1} {p : Nat} {v : Sym} (h : (s.getS j)[p]? = some v) :
    s.bufRead (.syms j) p = some (v.setWidth 32) := congrArg (Option.map _) h

/-! Success. -/

theorem exec_bclr (h : bufRef sp = some r) : exec (.bclr sp) s = .next (s.bufClear r).succeed :=
  exec_eq_of_ok rfl (withBuf_of_bufRef h _)

theorem exec_bput (h : bufRef sp = some r) (hfits : s.num ra < 2 ^ r.width) (hroom : s.bufLen r < r.max s.cfg) :
    exec (.bput ra sp) s = .next (s.bufAppend r (s.getX ra)).succeed :=
  exec_eq_of_ok rfl <| by
    rw [withBuf_of_bufRef h, if_neg (Nat.not_le.mpr hfits), if_neg (Nat.not_le.mpr hroom)]

theorem exec_bget (h : bufRef sp = some r) {v : Word} (hv : s.bufRead r (s.num rb) = some v) :
    exec (.bget ra rb sp) s = .next (s.setX ra v).succeed :=
  exec_eq_of_ok rfl <| by rw [withBuf_of_bufRef h, hv]

theorem exec_blen (h : bufRef sp = some r) :
    exec (.blen ra sp) s = .next (s.setX ra (natWord (s.bufLen r))).succeed :=
  exec_eq_of_ok rfl (withBuf_of_bufRef h _)

/-! Failure. -/

theorem bput_fails_outOfRange (h : bufRef sp = some r) (hwide : 2 ^ r.width ≤ s.num ra) :
    FailsWith (.bput ra sp) s .outOfRange :=
  failsWith_of_error rfl <| by rw [withBuf_of_bufRef h, if_pos hwide]

theorem bput_fails_lengthExceeded (h : bufRef sp = some r) (hfits : s.num ra < 2 ^ r.width)
    (hfull : s.bufLen r = r.max s.cfg) : FailsWith (.bput ra sp) s .lengthExceeded :=
  failsWith_of_error rfl <| by rw [withBuf_of_bufRef h, if_neg (Nat.not_le.mpr hfits), if_pos hfull.ge]

theorem bget_fails_outOfRange (h : bufRef sp = some r) (hbeyond : s.bufLen r ≤ s.num rb) :
    FailsWith (.bget ra rb sp) s .outOfRange :=
  failsWith_of_error rfl <| by rw [withBuf_of_bufRef h, (s.bufRead_eq_none_iff r _).mpr hbeyond]

/-! The obligations. -/

/-- Settles O19: the element appended is the value cut to the element's width, which it fits. -/
theorem bufferPut : Obligations.BufferPut := by
  refine fun s ra sp => ⟨fun k hk hfits hroom => ?chars, fun j hj hfits hroom => ?syms⟩
  case chars =>
    exact ⟨_, exec_bput (bufRef_chars sp k hk) hfits hroom, onlyC_setC k _, (s.getX ra).setWidth 8,
      (BitVec.toNat_setWidth ..).trans (Nat.mod_eq_of_lt hfits), s.getC_setC_same k _⟩
  case syms =>
    exact ⟨_, exec_bput (bufRef_syms sp j hj) hfits hroom, onlyS_setS j _, (s.getX ra).setWidth 16,
      (BitVec.toNat_setWidth ..).trans (Nat.mod_eq_of_lt hfits), s.getS_setS_same j _⟩

/-- Settles O20: an element is narrower than a register, and the maximum lengths of possible parameters fit one. -/
theorem bufferReadAndClear : Obligations.BufferReadAndClear := by
  refine fun s ra rb sp => ⟨fun k hk => ?chars, fun j hj => ?syms⟩
  case chars =>
    have hsel := bufRef_chars sp k hk
    refine ⟨⟨_, exec_bclr hsel, s.getC_setC_same k [], onlyC_setC k []⟩, fun v hv => ?get, fun hp hlen => ?len⟩
    case get =>
      exact exists_onlyX_of_exec (exec_bget hsel (State.bufRead_chars hv)) (BitVec.toNat_setWidth_of_le (by decide))
    case len =>
      have hlt : (s.getC k).length < 2 ^ 32 := (hlen.trans hp.charsHigh).trans_lt (by decide)
      exact exists_onlyX_of_exec (exec_blen hsel) (natWord_toNat _ hlt)
  case syms =>
    have hsel := bufRef_syms sp j hj
    refine ⟨⟨_, exec_bclr hsel, s.getS_setS_same j [], onlyS_setS j []⟩, fun v hv => ?get, fun hp hlen => ?len⟩
    case get =>
      exact exists_onlyX_of_exec (exec_bget hsel (State.bufRead_syms hv)) (BitVec.toNat_setWidth_of_le (by decide))
    case len =>
      exact exists_onlyX_of_exec (exec_blen hsel) (natWord_toNat _ (hlen.trans_lt hp.syms))

/-- Settles O21: the selected buffer decides the first test that fails, and a reserved selector fails before any. -/
theorem bufferErrors : Obligations.BufferErrors := by
  refine fun s ra rb sp => ⟨fun k hk => ?chars, fun j hj => ?syms, fun hsp => ?reserved⟩
  case chars =>
    have hsel := bufRef_chars sp k hk
    exact ⟨bput_fails_outOfRange hsel, bput_fails_lengthExceeded hsel, bget_fails_outOfRange hsel⟩
  case syms =>
    have hsel := bufRef_syms sp j hj
    exact ⟨bput_fails_outOfRange hsel, bput_fails_lengthExceeded hsel, bget_fails_outOfRange hsel⟩
  case reserved =>
    have hillegal := withBuf_of_reserved hsp
    exact ⟨failsWith_of_error rfl (hillegal _), failsWith_of_error rfl (hillegal _),
      failsWith_of_error rfl (hillegal _), failsWith_of_error rfl (hillegal _)⟩

end Sys2Proof.Machine
end

section
/-! The bits a BS command leaves in a stream (R134 to R138), position by position. -/

namespace Sys2Proof.Machine

variable {bits rest : List Bool} {i p : Nat}

/-! Inserting and removing: both keep the bits below the index and put something else after them. -/

theorem getElem?_take_append_of_lt (hi : i ≤ bits.length) (hp : p < i) : (bits.take i ++ rest)[p]? = bits[p]? := by
  rw [List.getElem?_append_left (by rwa [List.length_take_of_le hi]), List.getElem?_take_of_lt hp]

theorem getElem?_take_append_of_le (hi : i ≤ bits.length) (hp : i ≤ p) :
    (bits.take i ++ rest)[p]? = rest[p - i]? := by
  rw [List.getElem?_append_right (by rwa [List.length_take_of_le hi]), List.length_take_of_le hi]

theorem insertBit_length (hi : i ≤ bits.length) (v : Bool) : (insertBit bits i v).length = bits.length + 1 := by
  rw [insertBit, List.length_append, List.length_take_of_le hi, List.length_cons, List.length_drop]
  omega

/-- The new bit stands at its index (R136). -/
theorem getElem?_insertBit_self (hi : i ≤ bits.length) (v : Bool) : (insertBit bits i v)[i]? = some v := by
  rw [insertBit, getElem?_take_append_of_le hi le_rfl, Nat.sub_self, List.getElem?_cons_zero]

/-- Every bit from the index on stands one higher (R136). -/
theorem getElem?_insertBit_succ (hi : i ≤ bits.length) (v : Bool) (hp : i ≤ p) :
    (insertBit bits i v)[p + 1]? = bits[p]? := by
  rw [insertBit, getElem?_take_append_of_le hi (Nat.le_succ_of_le hp), Nat.succ_sub hp, List.getElem?_cons_succ,
    List.getElem?_drop, Nat.add_sub_of_le hp]

theorem removeBits_length {c : Nat} (hc : i + c ≤ bits.length) : (removeBits bits i c).length + c = bits.length := by
  rw [removeBits, List.length_append, List.length_take_of_le (by omega), List.length_drop]
  omega

/-- Every bit above the range stands as many lower as were removed (R137). -/
theorem getElem?_removeBits_of_le {c : Nat} (hi : i ≤ bits.length) (hp : i ≤ p) :
    (removeBits bits i c)[p]? = bits[p + c]? := by
  rw [removeBits, getElem?_take_append_of_le hi hp, List.getElem?_drop]
  congr 1
  omega

/-! Exclusive or. -/

theorem getElem?_zipWith_xor {bits₂ : List Bool} {u v : Bool} (hu : bits[p]? = some u) (hv : bits₂[p]? = some v) :
    (List.zipWith Bool.xor bits bits₂)[p]? = some (u ^^ v) :=
  List.getElem?_zipWith_eq_some.mpr ⟨u, v, hu, hv, rfl⟩

/-- A stream with itself gives zeros (R138). -/
theorem eq_false_of_mem_zipWith_xor_self {u : Bool} (hu : u ∈ List.zipWith Bool.xor bits bits) : u = false := by
  rw [List.zipWith_self, List.mem_map] at hu
  obtain ⟨v, -, rfl⟩ := hu
  exact Bool.xor_self v

/-! Bytes (R142, R150). -/

theorem sizeInBytes_bounds (n : Nat) : n ≤ 8 * sizeInBytes n ∧ 8 * sizeInBytes n < n + 8 := by
  rw [sizeInBytes]
  omega

/-- A stream needs no more than `m` bytes exactly when `m` bytes have room for its bits. -/
theorem sizeInBytes_le_iff {n m : Nat} : sizeInBytes n ≤ m ↔ n ≤ 8 * m := by
  rw [sizeInBytes]
  omega

/-- Bit `7 - t` of a byte is the `t`-th of its eight bits (R150). -/
theorem packByte_getLsbD (bits : List Bool) (j : Nat) {t : Nat} (ht : t < 8) :
    (packByte bits j).getLsbD (7 - t) = bits.getD (8 * j + t) false := by
  interval_cases t <;> simp only [packByte, BitVec.getLsbD_append, BitVec.getLsbD_ofBool] <;> simp

/-- The byte of position `p` holds its bit, or 0 where the stream has none (R150). -/
theorem packByte_bit (bits : List Bool) (p : Nat) :
    (packByte bits (p / 8)).getLsbD (7 - p % 8) = bits.getD p false := by
  rw [packByte_getLsbD bits _ (Nat.mod_lt p (by decide)), Nat.div_add_mod]

theorem getElem?_toBytes {bits : List Bool} {j : Nat} (hj : j < sizeInBytes bits.length) :
    (toBytes bits)[j]? = some (packByte bits j) := by
  rw [toBytes, List.getElem?_map, List.getElem?_range hj, Option.map_some]

theorem getElem?_toBytes_of_getElem? {v : Bool} (hv : bits[p]? = some v) :
    (toBytes bits)[p / 8]? = some (packByte bits (p / 8)) := by
  have hp : p < bits.length := (List.getElem?_eq_some_iff.mp hv).1
  exact getElem?_toBytes (by rw [sizeInBytes]; omega)

theorem eq_packByte_of_getElem?_toBytes {j : Nat} {y : Char8} (hy : (toBytes bits)[j]? = some y) :
    y = packByte bits j := by
  have hj : j < sizeInBytes bits.length := by
    rw [← toBytes_length]
    exact (List.getElem?_eq_some_iff.mp hy).1
  exact Option.some.inj (hy.symm.trans (getElem?_toBytes hj))

end Sys2Proof.Machine
end

section
/-! The BS commands (R133 to R142, R150): one rule for each outcome. -/

namespace Sys2Proof.Machine

variable {s : State} {ra rb : RegNum} {n6 : BitVec 6} {b b2 k : Ix} {bits : List Bool}

/-! Storing the enlarged bits (R131). -/

theorem growTo_of_le (h : bits.length ≤ s.cfg.bsMaxBits) :
    growTo s b bits = .ok (s.setB b ((s.getB b).withBits bits)) := by
  rw [growTo_eq, if_neg (Nat.not_lt.mpr h)]

theorem growTo_of_lt (h : s.cfg.bsMaxBits < bits.length) : growTo s b bits = .error .lengthExceeded := by
  rw [growTo_eq, if_pos h]

theorem onlyB_setB (b : Ix) (v : BitStream) : OnlyB s (s.setB b v).succeed b :=
  ⟨rfl, fun q hq => s.getB_setB_other b q v hq⟩

/-- A command that writes one stream, and nothing else. -/
theorem exists_onlyB_of_exec {i : Instr} {v : BitStream} (hexec : exec i s = .next (s.setB b v).succeed) :
    ∃ t, exec i s = .next t ∧ OnlyB s t b ∧ t.getB b = v :=
  ⟨_, hexec, onlyB_setB b v, by rw [State.getB_succeed, State.getB_setB_same]⟩

/-! Success. -/

theorem exec_bsApb (hroom : (s.getB b).bits.length < s.cfg.bsMaxBits) :
    exec (.bsApb ra b) s =
      .next (s.setB b ((s.getB b).withBits ((s.getB b).bits ++ [s.bitOf ra]))).succeed :=
  exec_eq_of_ok rfl (growTo_of_le (by rwa [List.length_append]))

theorem exec_bsApbs (hn : n6.toNat ≤ Config.bsAppendMax) (hroom : (s.getB b).bits.length + n6.toNat ≤ s.cfg.bsMaxBits) :
    exec (.bsApbs ra n6 b) s =
      .next (s.setB b ((s.getB b).withBits ((s.getB b).bits ++ msbBits (s.num ra) n6.toNat))).succeed :=
  exec_eq_of_ok rfl <| by
    rw [if_neg (Nat.not_lt.mpr hn), growTo_of_le (by rwa [List.length_append, msbBits_length])]

theorem exec_bsIns (hi : s.num ra < (s.getB b).bits.length) (hroom : (s.getB b).bits.length < s.cfg.bsMaxBits) :
    exec (.bsIns ra rb b) s =
      .next (s.setB b ((s.getB b).withBits (insertBit (s.getB b).bits (s.num ra) (s.bitOf rb)))).succeed :=
  exec_eq_of_ok rfl <| by
    rw [if_neg (Nat.not_le.mpr hi), growTo_of_le (by rwa [insertBit_length hi.le])]

theorem exec_bsRem (hi : s.num ra < (s.getB b).bits.length)
    (hc : s.num ra + s.num rb ≤ (s.getB b).bits.length) :
    exec (.bsRem ra rb b) s =
      .next (s.setB b ((s.getB b).withBits (removeBits (s.getB b).bits (s.num ra) (s.num rb)))).succeed :=
  exec_eq_of_ok rfl <| by rw [if_neg (Nat.not_le.mpr hi), if_neg (Nat.not_lt.mpr hc)]

theorem exec_bsXor (hsize : (s.getB b).bits.length = (s.getB b2).bits.length) :
    exec (.bsXor b b2) s = .next
      (s.setB b ((s.getB b).withBits (List.zipWith Bool.xor (s.getB b).bits (s.getB b2).bits))).succeed :=
  exec_eq_of_ok rfl (if_neg (not_not_intro hsize))

theorem exec_bsGet {v : Bool} (hv : (s.getB b).bits[s.num rb]? = some v) :
    exec (.bsGet ra rb b) s = .next (s.setX ra (bitWord v)).succeed :=
  exec_eq_of_ok rfl <| by rw [hv]

theorem exec_bsSet (hi : s.num ra < (s.getB b).bits.length) :
    exec (.bsSet ra rb b) s =
      .next (s.setB b ((s.getB b).withBits ((s.getB b).bits.set (s.num ra) (s.bitOf rb)))).succeed :=
  exec_eq_of_ok rfl (if_neg (Nat.not_le.mpr hi))

theorem exec_bsTob (hfits : (s.getB b).bits.length ≤ 8 * s.cfg.cMax) :
    exec (.bsTob b k) s = .next (s.setC k (toBytes (s.getB b).bits)).succeed :=
  exec_eq_of_ok rfl (if_neg (Nat.not_lt.mpr (sizeInBytes_le_iff.mpr hfits)))

/-! Failure. -/

theorem bsApb_fails_lengthExceeded (hfull : (s.getB b).bits.length = s.cfg.bsMaxBits) :
    FailsWith (.bsApb ra b) s .lengthExceeded :=
  failsWith_of_error rfl (growTo_of_lt (by rw [List.length_append, hfull]; exact Nat.lt_succ_self _))

theorem bsApbs_fails_outOfRange (hn : Config.bsAppendMax < n6.toNat) : FailsWith (.bsApbs ra n6 b) s .outOfRange :=
  failsWith_of_error rfl (if_pos hn)

theorem bsApbs_fails_lengthExceeded (hn : n6.toNat ≤ Config.bsAppendMax)
    (hlong : s.cfg.bsMaxBits < (s.getB b).bits.length + n6.toNat) : FailsWith (.bsApbs ra n6 b) s .lengthExceeded :=
  failsWith_of_error rfl <| by
    rw [if_neg (Nat.not_lt.mpr hn), growTo_of_lt (by rwa [List.length_append, msbBits_length])]

theorem bsIns_fails_outOfRange (hi : (s.getB b).bits.length ≤ s.num ra) : FailsWith (.bsIns ra rb b) s .outOfRange :=
  failsWith_of_error rfl (if_pos hi)

theorem bsIns_fails_lengthExceeded (hi : s.num ra < (s.getB b).bits.length)
    (hfull : (s.getB b).bits.length = s.cfg.bsMaxBits) : FailsWith (.bsIns ra rb b) s .lengthExceeded :=
  failsWith_of_error rfl <| by
    rw [if_neg (Nat.not_le.mpr hi), growTo_of_lt (by rw [insertBit_length hi.le, hfull]; exact Nat.lt_succ_self _)]

theorem bsRem_fails_at_index (hi : (s.getB b).bits.length ≤ s.num ra) : FailsWith (.bsRem ra rb b) s .outOfRange :=
  failsWith_of_error rfl (if_pos hi)

/-- A range past the end fails with the kind of the index test, so which of the two tests fails makes no difference. -/
theorem bsRem_fails_past_end (hc : (s.getB b).bits.length < s.num ra + s.num rb) :
    FailsWith (.bsRem ra rb b) s .outOfRange :=
  failsWith_of_error rfl <| by rw [if_pos hc, ite_self]

theorem bsXor_fails_sizeMismatch (hsize : (s.getB b).bits.length ≠ (s.getB b2).bits.length) :
    FailsWith (.bsXor b b2) s .sizeMismatch :=
  failsWith_of_error rfl (if_pos hsize)

theorem bsGet_fails_outOfRange (hi : (s.getB b).bits.length ≤ s.num rb) : FailsWith (.bsGet ra rb b) s .outOfRange :=
  failsWith_of_error rfl <| by rw [List.getElem?_eq_none hi]

theorem bsSet_fails_outOfRange (hi : (s.getB b).bits.length ≤ s.num ra) : FailsWith (.bsSet ra rb b) s .outOfRange :=
  failsWith_of_error rfl (if_pos hi)

theorem bsTob_fails_lengthExceeded (hlong : 8 * s.cfg.cMax < (s.getB b).bits.length) :
    FailsWith (.bsTob b k) s .lengthExceeded :=
  failsWith_of_error rfl (if_pos (Nat.lt_of_not_le fun h => Nat.not_le.mpr hlong (sizeInBytes_le_iff.mp h)))

/-! The obligations. -/

/-- Settles O22: the bits appended are the low bits of the value, behind the old ones. -/
theorem appendedBitsReadBack : Obligations.AppendedBitsReadBack := by
  refine fun s ra n6 b => ⟨fun hroom => ?bit, fun hn hroom => ?bits⟩
  case bit =>
    obtain ⟨t, hexec, honly, hb⟩ := exists_onlyB_of_exec (exec_bsApb (ra := ra) hroom)
    exact ⟨t, hexec, honly, by rw [hb]; rfl⟩
  case bits =>
    obtain ⟨t, hexec, honly, hb⟩ := exists_onlyB_of_exec (exec_bsApbs (ra := ra) hn hroom)
    refine ⟨t, hexec, honly, ?_⟩
    rw [hb, withBits_bits]
    refine ⟨by rw [List.length_append, msbBits_length], fun p hp => List.getElem?_append_left hp, fun p hp => ?_⟩
    rw [List.getElem?_append_right (Nat.le_add_right _ _), Nat.add_sub_cancel_left, msbBits_getElem? _ _ _ hp,
      State.num, BitVec.testBit_toNat]

/-- Settles O23: the bits below the index stay because both commands keep that prefix. -/
theorem insertAndRemoveShift : Obligations.InsertAndRemoveShift := by
  refine fun s ra rb b hi => ⟨fun hroom => ?ins, fun hc => ?rem⟩
  case ins =>
    obtain ⟨t, hexec, honly, hb⟩ := exists_onlyB_of_exec (exec_bsIns (rb := rb) hi hroom)
    refine ⟨t, hexec, honly, ?_⟩
    rw [hb, withBits_bits]
    exact ⟨insertBit_length hi.le _, getElem?_insertBit_self hi.le _,
      fun p hp => getElem?_take_append_of_lt hi.le hp, fun p hp => getElem?_insertBit_succ hi.le _ hp⟩
  case rem =>
    obtain ⟨t, hexec, honly, hb⟩ := exists_onlyB_of_exec (exec_bsRem hi hc)
    refine ⟨t, hexec, honly, ?_⟩
    rw [hb, withBits_bits]
    exact ⟨withBits_cap_same _ _ (removeBits_length_le ..), removeBits_length hc,
      fun p hp => getElem?_take_append_of_lt hi.le hp, fun p hp => getElem?_removeBits_of_le hi.le hp⟩

/-- Settles O24: no result is longer than the stream was, so the capacity stays. -/
theorem xorGetAndSetBits : Obligations.XorGetAndSetBits := by
  refine fun s ra rb b b2 => ⟨fun hsize => ?xor, fun v hv => ?get, fun hi => ?set⟩
  case xor =>
    obtain ⟨t, hexec, honly, hb⟩ := exists_onlyB_of_exec (exec_bsXor hsize)
    have hlen : (List.zipWith Bool.xor (s.getB b).bits (s.getB b2).bits).length = (s.getB b).bits.length := by
      rw [List.length_zipWith, ← hsize, Nat.min_self]
    refine ⟨t, hexec, honly, ?_⟩
    rw [hb, withBits_bits]
    refine ⟨withBits_cap_same _ _ hlen.le, hlen, fun p u v hu hv => getElem?_zipWith_xor hu hv, fun hsame u hu => ?_⟩
    subst hsame
    exact eq_false_of_mem_zipWith_xor_self hu
  case get => exact exists_onlyX_of_exec (exec_bsGet hv) (bitWord_toNat v)
  case set =>
    obtain ⟨t, hexec, honly, hb⟩ := exists_onlyB_of_exec (exec_bsSet (rb := rb) hi)
    obtain ⟨hlen, hself, hother⟩ := set_existing (s.bitOf rb) hi
    refine ⟨t, hexec, honly, ?_⟩
    rw [hb, withBits_bits]
    exact ⟨withBits_cap_same _ _ hlen.le, hlen, hself, hother⟩

/-- Settles O25: position `p` of the bytes reads bit `p` of the stream, or 0 beyond its size. -/
theorem toBytesRoundTrip : Obligations.ToBytesRoundTrip := by
  intro s b k hfits
  refine ⟨_, exec_bsTob hfits, onlyC_setC k _, ?_⟩
  rw [State.getC_succeed, State.getC_setC_same, toBytes_length]
  obtain ⟨hholds, hleast⟩ := sizeInBytes_bounds (s.getB b).bits.length
  refine ⟨hleast, hholds, fun p v hv => ⟨_, getElem?_toBytes_of_getElem? hv, ?_⟩, fun p y hp hy => ?_⟩
  · rw [packByte_bit, List.getD_eq_getElem?_getD, hv, Option.getD_some]
  · rw [eq_packByte_of_getElem?_toBytes hy, packByte_bit, List.getD_eq_getElem?_getD, List.getElem?_eq_none hp,
      Option.getD_none]

/-- Settles O26: a size within the maximum of possible parameters fits a register. -/
theorem streamSizes : Obligations.StreamSizes := by
  refine fun s ra b => ⟨?clear, fun hp hlen => ⟨?size, ?bytes⟩⟩
  case clear =>
    obtain ⟨t, hexec, honly, hb⟩ := exists_onlyB_of_exec (i := .bsClr b) (exec_eq_of_ok rfl rfl)
    exact ⟨t, hexec, honly, by rw [hb]; exact ⟨rfl, rfl⟩⟩
  case size => exact exists_onlyX_of_exec (exec_eq_of_ok rfl rfl) (natWord_toNat _ (hlen.trans_lt hp.bits))
  case bytes =>
    have hmax := hp.bits
    exact exists_onlyX_of_exec (exec_eq_of_ok rfl rfl) (natWord_toNat _ (by omega))

/-- Settles O28: each clause is the one test it makes fail, the tests before it passing. -/
theorem bitStreamErrors : Obligations.BitStreamErrors := fun _ _ _ _ _ _ _ =>
  ⟨bsApb_fails_lengthExceeded, bsApbs_fails_outOfRange, bsApbs_fails_lengthExceeded,
    fun hi => ⟨bsIns_fails_outOfRange hi, bsRem_fails_at_index hi, bsSet_fails_outOfRange hi⟩,
    bsIns_fails_lengthExceeded, bsRem_fails_past_end, bsGet_fails_outOfRange, bsXor_fails_sizeMismatch,
    bsTob_fails_lengthExceeded⟩

end Sys2Proof.Machine
end

section
/-! The capacity of every stream after a command (R131): a command other than `SRST` and `BS.CLR` leaves in each stream
what `BitStream.withBits` makes of some bits. -/

namespace Sys2Proof.Machine

variable {s t : State} {b : Ix}

/-- The stream `B[b]` of `t` is that of `s` with its bits rewritten, perhaps by themselves. -/
def RewritesStream (b : Ix) (s t : State) : Prop := ∃ bits, t.getB b = (s.getB b).withBits bits

theorem withBits_self (v : BitStream) : v.withBits v.bits = v := by simp [BitStream.withBits]

theorem RewritesStream.of_getB_eq (h : t.getB b = s.getB b) : RewritesStream b s t :=
  ⟨(s.getB b).bits, by rw [h, withBits_self]⟩

/-- Rewriting one stream rewrites each. -/
theorem RewritesStream.setB (q : Ix) (bits : List Bool) :
    RewritesStream b s (s.setB q ((s.getB q).withBits bits)) := by
  by_cases h : b = q
  · subst h
    exact ⟨bits, s.getB_setB_same b _⟩
  · exact .of_getB_eq (s.getB_setB_other q b _ h)

/-- A command rewrites a stream if its result does: the end of a command writes no stream. -/
theorem rewritesStream_of_ok {i : Instr} {result : Except ErrorKind State} (hexec : exec i s = finish s i result)
    (h : exec i s = .next t) (hok : ∀ u, result = .ok u → RewritesStream b s u) : RewritesStream b s t := by
  rw [hexec] at h
  obtain ⟨u, hu, rfl⟩ | ⟨k, -, rfl⟩ := finish_next h
  · exact hok u hu
  · exact .of_getB_eq rfl

/-! What the results are when they are no error. -/

theorem eq_ok_of_unless {c : Prop} [Decidable c] {k : ErrorKind} {a : Except ErrorKind State}
    (h : (if c then .error k else a) = .ok t) : a = .ok t := by
  split at h
  · exact nomatch h
  · exact h

theorem growTo_ok {bits : List Bool} (h : growTo s b bits = .ok t) : t = s.setB b ((s.getB b).withBits bits) := by
  rw [growTo_eq] at h
  exact (Except.ok.inj (eq_ok_of_unless h)).symm

theorem dcAppend_ok {sym : Symbology} {e : Compacted} (h : dcAppend s b sym e = .ok t) :
    t = (s.setB b ((s.getB b).withBits ((s.getB b).bits ++ e.bits))).setMode e.mode := by
  rw [dcAppend, grown_eq] at h
  by_cases hlong : s.cfg.bsMaxBits < ((s.getB b).bits ++ e.bits).length
  · rw [if_pos hlong] at h
    exact nomatch h
  · rw [if_neg hlong] at h
    exact (Except.ok.inj (eq_ok_of_unless h)).symm

/-! The commands. -/

/-- The commands with a stream in their footprint rewrite that one; the others leave all four alone. -/
theorem exec_rewritesStream {i : Instr} (hsrst : i ≠ .srst) (hclr : ∀ q, i ≠ .bsClr q) (h : exec i s = .next t) :
    RewritesStream b s t := by
  have hwithin : Within (footprint i) s t := commandsStayWithinFootprint i s t hsrst h
  cases i with
  | srst => exact absurd rfl hsrst
  | bsClr q => exact absurd rfl (hclr q)
  | bsApb => exact rewritesStream_of_ok rfl h fun u hu => growTo_ok hu ▸ .setB _ _
  | bsApbs | bsIns => exact rewritesStream_of_ok rfl h fun u hu => growTo_ok (eq_ok_of_unless hu) ▸ .setB _ _
  | bsRem =>
    exact rewritesStream_of_ok rfl h fun u hu => Except.ok.inj (eq_ok_of_unless (eq_ok_of_unless hu)) ▸ .setB _ _
  | bsXor | bsSet => exact rewritesStream_of_ok rfl h fun u hu => Except.ok.inj (eq_ok_of_unless hu) ▸ .setB _ _
  | dcEnc =>
    refine rewritesStream_of_ok rfl h fun u hu => ?_
    have hencoded := eq_ok_of_unless hu
    split at hencoded
    · exact dcAppend_ok hencoded ▸ .setB _ _
    · exact nomatch hencoded
  | dcPad =>
    refine rewritesStream_of_ok rfl h fun u hu => ?_
    have hpadded := eq_ok_of_unless hu
    split at hpadded
    · exact Except.ok.inj hpadded ▸ .of_getB_eq rfl
    · exact Except.ok.inj hpadded ▸ .setB _ _
  | bclr | bput =>
    refine .of_getB_eq (hwithin.b b ?_)
    simp only [footprint]
    split <;> nofun
  | _ => exact .of_getB_eq (hwithin.b b nofun)

/-! The doublings. -/

/-- R131: new bits double the capacity of a well-shaped stream the least number of times such that it holds them. -/
theorem withBits_cap_spec {p : Params} (hp : p.Ok) {v : BitStream} (hv : v.Ok p) (bits : List Bool) :
    ∃ j, (v.withBits bits).cap = v.cap * 2 ^ j ∧ bits.length ≤ 8 * (v.withBits bits).cap ∧
      ∀ j', bits.length ≤ 8 * (v.cap * 2 ^ j') → j ≤ j' := by
  obtain ⟨hfit, -, -, i, hcap⟩ := BitStream.ok_iff.mp hv
  have hpos : 1 ≤ v.cap := hcap ▸ Nat.mul_pos hp.capacity (Nat.two_pow_pos i)
  by_cases hgrow : v.bits.length < bits.length
  · rw [BitStream.withBits, if_pos hgrow]
    exact growCap_spec bits.length bits.length v.cap hpos (size_le_double _ _ hpos)
  · have hle := Nat.not_lt.mp hgrow
    rw [withBits_cap_same v bits hle]
    exact ⟨0, (Nat.mul_one _).symm, hle.trans hfit, fun _ _ => Nat.zero_le _⟩

/-- Settles O27: every stream is the old one with some bits, and those decide the doublings. -/
theorem capacityDoubles : Obligations.CapacityDoubles := by
  intro s t i b hs hsrst hclr hexec
  obtain ⟨bits, hb⟩ : RewritesStream b s t := exec_rewritesStream hsrst hclr hexec
  rw [hb, withBits_bits]
  exact withBits_cap_spec hs.params (hs.bits b) bits

end Sys2Proof.Machine
end

section
/-! The sums of unit CK and the characters that stand for them (R162 to R167), on any string. -/

namespace Sys2Proof.Machine

/-! The sums. -/

/-- A weighted sum, written out over the positions. -/
theorem weightedSum_eq_sum_range (term : Char8 → Nat → Nat) (cs : List Char8) :
    weightedSum term cs = ((List.range cs.length).map fun j => term (cs.getD j 0) j).sum := by
  refine congrArg List.sum (List.ext_getElem (by simp) fun j hzip hrange => ?_)
  have hj : j < cs.length := by simpa using hrange
  simp [hj]

/-- A sum whose terms ignore the position. -/
theorem weightedSum_const (term : Char8 → Nat) (cs : List Char8) :
    weightedSum (fun c _ => term c) cs = (cs.map term).sum := by
  have hfst : cs.zipIdx.map (fun cj => term cj.1) = cs.map term := by
    rw [← Function.comp_def term Prod.fst, ← List.map_map, List.zipIdx_map_fst]
  exact congrArg List.sum hfst

/-- R162: position `j` from the right is position `n - 1 - j` from the left. -/
theorem mod10Sum_eq (cs : List Char8) :
    mod10Sum cs = ((List.range cs.length).map fun j =>
      dval (cs.getD (cs.length - 1 - j) 0) * (if j % 2 = 0 then 3 else 1)).sum := by
  rw [mod10Sum, weightedSum_eq_sum_range, List.length_reverse]
  refine congrArg List.sum (List.map_congr_left fun j hj => ?_)
  rw [List.getD_reverse j (List.mem_range.mp hj)]

/-- R163. -/
theorem mod11Sum_eq (cs : List Char8) :
    mod11Sum cs = ((List.range cs.length).map fun j => dval (cs.getD j 0) * (j + 1)).sum :=
  weightedSum_eq_sum_range ..

/-- The fold of R166 changes no product below 10, so it need not ask. -/
theorem foldProduct_eq (p : Nat) : foldProduct p = p / 10 + p % 10 := by
  unfold foldProduct
  split
  · rfl
  · omega

/-- R166. -/
theorem opccSum_eq (cs : List Char8) :
    opccSum cs = ((List.range cs.length).map fun j =>
      let p := dval (cs.getD j 0) * (if j % 2 = 0 then 2 else 1)
      p / 10 + p % 10).sum := by
  simp only [opccSum, weightedSum_eq_sum_range, foldProduct_eq]

/-- R164. -/
theorem mod43Sum_eq (set cs : List Char8) : mod43Sum set cs = (cs.map fun c => set.idxOf c).sum :=
  weightedSum_const ..

theorem mod43Sum_perm (set : List Char8) {cs ds : List Char8} (h : cs.Perm ds) : mod43Sum set cs = mod43Sum set ds := by
  rw [mod43Sum_eq, mod43Sum_eq, (h.map _).sum_eq]

/-! The characters. -/

theorem complement10_lt (sum : Nat) : complement10 sum < 10 := Nat.mod_lt _ (by decide)

/-- The digit of R162 and R166 completes its sum to a multiple of 10. -/
theorem ten_dvd_add_complement10 (sum : Nat) : 10 ∣ sum + complement10 sum := by
  unfold complement10
  omega

theorem digitWord_toNat {d : Nat} (h : d < 10) : (digitWord d).toNat = 0x30 + d := natWord_toNat _ (by omega)

theorem mod11Char_toNat {r : Nat} (h : r < 11) : (mod11Char r).toNat = if r = 10 then 0x58 else 0x30 + r := by
  unfold mod11Char
  split
  · rfl
  · exact digitWord_toNat (by omega)

/-- A set of 43 characters has one for every sum, and a register holds it. -/
theorem exists_mod43Char {set : List Char8} (hset : set.length = 43) (sum : Nat) :
    ∃ v, set[sum % 43]? = some v ∧ (mod43Char set sum).toNat = v.toNat := by
  have hlt : sum % 43 < set.length := (Nat.mod_lt sum (by decide)).trans_eq hset.symm
  refine ⟨_, List.getElem?_eq_getElem hlt, ?_⟩
  rw [mod43Char, List.getD_eq_getElem _ _ hlt, BitVec.toNat_setWidth_of_le (by decide)]

end Sys2Proof.Machine
end

section
/-! The CK commands (R160 to R164, R166) and the failures of CK and LN (R161, R191 to R194): one rule for each
outcome. -/

namespace Sys2Proof.Machine

variable {s : State} {ra rb : RegNum} {k la : Ix}

/-! The input check (R161). -/

theorem inC39_iff {set : List Char8} {c : Char8} : inC39 set c = true ↔ c ∈ set := List.contains_iff_mem

theorem checksum_of_legal {legal : Char8 → Bool} (h : ∀ c ∈ s.getC k, legal c = true) (result : List Char8 → Word) :
    checksum s ra k legal result = .ok (s.setX ra (result (s.getC k))) := if_pos (List.all_eq_true.mpr h)

theorem not_all_of_exists {legal : Char8 → Bool} {cs : List Char8} (h : ∃ c ∈ cs, legal c = false) :
    ¬cs.all legal = true := by
  obtain ⟨c, hc, hillegal⟩ := h
  exact fun hall => Bool.false_ne_true (hillegal.symm.trans (List.all_eq_true.mp hall c hc))

theorem checksum_of_illegal {legal : Char8 → Bool} (h : ∃ c ∈ s.getC k, legal c = false)
    (result : List Char8 → Word) : checksum s ra k legal result = .error .invalidCharacter :=
  if_neg (not_all_of_exists h)

/-! Success. -/

theorem exec_ckMod10 (h : ∀ c ∈ s.getC k, isDigit c = true) :
    exec (.ckMod10 ra k) s = .next (s.setX ra (digitWord (complement10 (mod10Sum (s.getC k))))).succeed :=
  exec_eq_of_ok rfl (checksum_of_legal h _)

theorem exec_ckMod11 (h : ∀ c ∈ s.getC k, isDigit c = true) :
    exec (.ckMod11 ra k) s = .next (s.setX ra (mod11Char (mod11Sum (s.getC k) % 11))).succeed :=
  exec_eq_of_ok rfl (checksum_of_legal h _)

theorem exec_ckOpcc (h : ∀ c ∈ s.getC k, isDigit c = true) :
    exec (.ckOpcc ra k) s = .next (s.setX ra (digitWord (complement10 (opccSum (s.getC k))))).succeed :=
  exec_eq_of_ok rfl (checksum_of_legal h _)

theorem exec_ckMod43 (h : ∀ c ∈ s.getC k, c ∈ s.cfg.c39set) :
    exec (.ckMod43 ra k) s =
      .next (s.setX ra (mod43Char s.cfg.c39set (mod43Sum s.cfg.c39set (s.getC k)))).succeed :=
  exec_eq_of_ok rfl (checksum_of_legal (fun c hc => inC39_iff.mpr (h c hc)) _)

/-- The Mod43 command does not see the order of its input (R164). -/
theorem exec_ckMod43_perm {s' : State} (hcfg : s'.cfg = s.cfg) (hperm : (s'.getC k).Perm (s.getC k))
    (h : ∀ c ∈ s.getC k, c ∈ s.cfg.c39set) :
    exec (.ckMod43 ra k) s' =
      .next (s'.setX ra (mod43Char s.cfg.c39set (mod43Sum s.cfg.c39set (s.getC k)))).succeed := by
  rw [exec_ckMod43 fun c hc => hcfg ▸ h c (hperm.mem_iff.mp hc), hcfg, mod43Sum_perm _ hperm]

/-! Failure. -/

theorem ckMod10_fails_invalidCharacter (h : ∃ c ∈ s.getC k, isDigit c = false) :
    FailsWith (.ckMod10 ra k) s .invalidCharacter := failsWith_of_error rfl (checksum_of_illegal h _)

theorem ckMod11_fails_invalidCharacter (h : ∃ c ∈ s.getC k, isDigit c = false) :
    FailsWith (.ckMod11 ra k) s .invalidCharacter := failsWith_of_error rfl (checksum_of_illegal h _)

theorem ckOpcc_fails_invalidCharacter (h : ∃ c ∈ s.getC k, isDigit c = false) :
    FailsWith (.ckOpcc ra k) s .invalidCharacter := failsWith_of_error rfl (checksum_of_illegal h _)

theorem ckMod43_fails_invalidCharacter (h : ∃ c ∈ s.getC k, c ∉ s.cfg.c39set) :
    FailsWith (.ckMod43 ra k) s .invalidCharacter := by
  obtain ⟨c, hc, hout⟩ := h
  have hillegal : inC39 s.cfg.c39set c = false := Bool.eq_false_iff.mpr fun hin => hout (inC39_iff.mp hin)
  exact failsWith_of_error rfl (checksum_of_illegal ⟨c, hc, hillegal⟩ _)

theorem lnLdec_fails_invalidInput (h : ∃ c ∈ s.getC k, isDigit c = false) :
    FailsWith (.lnLdec la k) s .invalidInput := failsWith_of_error rfl (if_neg (not_all_of_exists h))

theorem lnMul_fails_invalidInput (h : ∃ c ∈ s.getC k, isDigit c = false) :
    FailsWith (.lnMul la k) s .invalidInput := failsWith_of_error rfl (if_neg (not_all_of_exists h))

theorem lnGetb_fails_outOfRange (h : Config.lnCells ≤ s.num rb) : FailsWith (.lnGetb ra rb la) s .outOfRange :=
  failsWith_of_error rfl (if_pos h)

theorem lnSetb_fails_outOfRange (h : Config.lnCells ≤ s.num rb) : FailsWith (.lnSetb ra rb la) s .outOfRange :=
  failsWith_of_error rfl (if_pos h)

/-! The obligations. -/

/-- Settles O32: each kind is that of the one test the input fails. -/
theorem checkAndNumberErrors : Obligations.CheckAndNumberErrors := fun _ _ _ _ _ =>
  ⟨fun h => ⟨ckMod10_fails_invalidCharacter h, ckMod11_fails_invalidCharacter h, ckOpcc_fails_invalidCharacter h,
      lnLdec_fails_invalidInput h, lnMul_fails_invalidInput h⟩,
    ckMod43_fails_invalidCharacter, fun h => ⟨lnGetb_fails_outOfRange h, lnSetb_fails_outOfRange h⟩⟩

/-- Settles O29: the digit is the complement of the sum, which keeps the weights of the data. -/
theorem mod10CheckDigit : Obligations.Mod10CheckDigit := by
  intro s ra k hdigits
  have hlt := complement10_lt (mod10Sum (s.getC k))
  obtain ⟨t, hexec, hval, honly⟩ := exists_onlyX_of_exec (exec_ckMod10 (ra := ra) hdigits) (digitWord_toNat hlt)
  refine ⟨t, hexec, honly, by omega, by omega, ?_⟩
  rw [← mod10Sum_eq, hval, Nat.add_sub_cancel_left]
  exact ten_dvd_add_complement10 _

/-- Settles O30: the remainder of the one sum, and the complement of the other. -/
theorem mod11AndOpccCharacters : Obligations.Mod11AndOpccCharacters := by
  refine fun s ra k hdigits => ⟨?mod11, ?opcc⟩
  case mod11 =>
    have hlt : mod11Sum (s.getC k) % 11 < 11 := Nat.mod_lt _ (by decide)
    obtain ⟨t, hexec, hval, honly⟩ := exists_onlyX_of_exec (exec_ckMod11 (ra := ra) hdigits) (mod11Char_toNat hlt)
    exact ⟨t, hexec, honly, _, hlt, hval, by rw [mod11Sum_eq]⟩
  case opcc =>
    have hlt := complement10_lt (opccSum (s.getC k))
    obtain ⟨t, hexec, hval, honly⟩ := exists_onlyX_of_exec (exec_ckOpcc (ra := ra) hdigits) (digitWord_toNat hlt)
    exact ⟨t, hexec, honly, _, hlt, hval, opccSum_eq (s.getC k) ▸ ten_dvd_add_complement10 _⟩

/-- Settles O31: the character is a function of the sum, and a permutation keeps the sum. -/
theorem mod43Character : Obligations.Mod43Character := by
  intro s ra k hset hin
  obtain ⟨v, hv, hchar⟩ := exists_mod43Char hset (mod43Sum s.cfg.c39set (s.getC k))
  refine ⟨_, exec_ckMod43 hin, onlyX_setX ra _, ⟨v, mod43Sum_eq _ _ ▸ hv, ?value⟩, fun s' hcfg hperm =>
    ⟨_, exec_ckMod43_perm hcfg hperm hin, ?same⟩⟩
  case value => rw [State.getX_succeed, State.getX_setX_same, hchar]
  case same => rw [State.getX_succeed, State.getX_succeed, State.getX_setX_same, State.getX_setX_same]

end Sys2Proof.Machine
end

section
/-! The cell algorithms of unit LN (R184, R187, R190 to R192) give the values of the commands: each loop by its own
invariant, one cell or one character a turn. -/

namespace Sys2Proof.Machine

/-! The adder and the subtraction (R184, R187). -/

/-- The ripple's carry is the carry of binary addition. -/
theorem cellCarry_eq_carry (a b : Large) (cin : Bool) (i : Nat) : cellCarry a b cin i = BitVec.carry i a b cin := by
  induction i with
  | zero => rw [cellCarry, BitVec.carry_zero]
  | succ i ih =>
    rw [cellCarry, BitVec.carry_succ, ih]
    generalize a.getLsbD i = x, b.getLsbD i = y, BitVec.carry i a b cin = c
    revert x y c
    decide

/-- A sum cell is the parity of the two cells and the carry. -/
theorem cellSum_eq_xor (a b : Large) (cin : Bool) (i : Nat) :
    cellSum a b cin i = (a.getLsbD i ^^ (b.getLsbD i ^^ BitVec.carry i a b cin)) := by
  rw [cellSum, cellCarry_eq_carry]
  generalize a.getLsbD i = x, b.getLsbD i = y, BitVec.carry i a b cin = c
  revert x y c
  decide

/-- Writing the cells below `n` one after the other writes exactly those. -/
theorem getLsbD_foldl_setCell (f : Nat → Bool) (n : Nat) {p : Nat} (hp : p < 112) :
    ((List.range n).foldl (fun r i => setCell r i (f i)) 0).getLsbD p = (decide (p < n) && f p) := by
  induction n with
  | zero => simp
  | succ n ih =>
    rw [List.range_succ, List.foldl_concat, getLsbD_setCell _ _ _ hp, ih]
    by_cases h : p = n
    · simp [h]
    · have hlt : p < n + 1 ↔ p < n := by omega
      simp [h, hlt]

/-- R184: the cells the adder writes are those of the sum modulo `2^112`. -/
theorem add112_eq (a b : Large) (cin : Bool) : add112 a b cin = a + b + BitVec.setWidth 112 (BitVec.ofBool cin) := by
  refine BitVec.eq_of_getLsbD_eq fun p hp => ?_
  have hcell : decide (p < Config.lnCells) = true := decide_eq_true hp
  rw [add112, getLsbD_foldl_setCell _ _ hp, hcell, Bool.true_and, cellSum_eq_xor, BitVec.getLsbD_add_add_bool hp]

theorem add112_false (a b : Large) : add112 a b false = a + b := by
  rw [add112_eq]
  exact BitVec.add_zero _

theorem add112_true (a b : Large) : add112 a b true = a + b + 1 := add112_eq a b true

theorem add112_toNat (a b : Large) (cin : Bool) :
    (add112 a b cin).toNat = (a.toNat + b.toNat + cin.toNat) % 2 ^ 112 := by
  rw [add112_eq, BitVec.toNat_add, BitVec.toNat_add, BitVec.toNat_setWidth, BitVec.toNat_ofBool, ← Nat.add_mod]

/-- R187 in one addition: the second addition of 1 is a carry into cell 0 of the first. -/
theorem sub112_eq_add112_not (a b : Large) : sub112 a b = add112 a (~~~b) true := by
  rw [sub112, add112_false, add112_false, add112_true]

theorem sub112_eq (a b : Large) : sub112 a b = a - b := by
  rw [sub112_eq_add112_not, add112_true, BitVec.sub_eq_add_neg, BitVec.neg_eq_not_add, add_assoc]
  rfl

/-! The comparator (R190). -/

/-- A cell is a binary digit of the value. -/
theorem toNat_getLsbD (a : Large) (i : Nat) : (a.getLsbD i).toNat = a.toNat / 2 ^ i % 2 := by
  rw [← BitVec.testBit_toNat, Nat.toNat_testBit]

/-- The scan from cell `n - 1` down compares the values of the cells below `n`: the top cell decides unless it is the
same in both. -/
theorem scanCompare_eq (a b : Large) (n : Nat) : scanCompare a b n = decide (b.toNat % 2 ^ n < a.toNat % 2 ^ n) := by
  induction n with
  | zero => simp [scanCompare, Nat.mod_one]
  | succ i ih =>
    have ha : a.toNat % 2 ^ i < 2 ^ i := Nat.mod_lt _ (Nat.two_pow_pos i)
    have hb : b.toNat % 2 ^ i < 2 ^ i := Nat.mod_lt _ (Nat.two_pow_pos i)
    rw [scanCompare, ih, Nat.mod_pow_succ, Nat.mod_pow_succ, ← toNat_getLsbD, ← toNat_getLsbD]
    cases a.getLsbD i with
    | false =>
      cases b.getLsbD i with
      | false => simp
      | true => simp; omega
    | true =>
      cases b.getLsbD i with
      | false => simp; omega
      | true => simp

/-! The decimal load (R191). -/

theorem repeatAdd_eq (t : Large) (n : Nat) (r : Large) : repeatAdd t n r = r + BitVec.ofNat 112 n * t := by
  induction n generalizing r with
  | zero => simp [repeatAdd]
  | succ n ih =>
    rw [repeatAdd, ih, add112_false, ← BitVec.natCast_eq_ofNat, ← BitVec.natCast_eq_ofNat, Nat.cast_succ]
    ring

/-- Nine additions and one of the digit are `10 * r + digit`. -/
theorem loadDigit_eq (r : Large) (c : Char8) : loadDigit r c = 10 * r + BitVec.ofNat 112 (dval c) := by
  have hnine : BitVec.ofNat 112 9 = 9 := rfl
  rw [loadDigit, add112_false, repeatAdd_eq, hnine]
  ring

theorem loadCells_eq_loadDecimal (old : Large) (cs : List Char8) : loadCells old cs = loadDecimal old cs :=
  congrArg (fun f => cs.foldl f old) (funext₂ loadDigit_eq)

/-- The load puts the digits behind the old value, in base 10. -/
theorem loadDecimal_ofNat (n : Nat) (cs : List Char8) :
    loadDecimal (BitVec.ofNat 112 n) cs =
      BitVec.ofNat 112 (n * 10 ^ cs.length + Nat.ofDigits 10 (cs.reverse.map dval)) := by
  induction cs generalizing n with
  | nil => simp [loadDecimal]
  | cons c cs ih =>
    calc loadDecimal (BitVec.ofNat 112 n) (c :: cs)
        = loadDecimal (BitVec.ofNat 112 (10 * n + dval c)) cs := by
          rw [BitVec.ofNat_add, BitVec.ofNat_mul]
          rfl
      _ = _ := by
          rw [ih, List.map_reverse, List.map_reverse, List.map_cons, Nat.ofDigits_reverse_cons, List.length_map,
            List.length_cons]
          ring_nf

theorem loadDecimal_toNat (old : Large) (cs : List Char8) :
    (loadDecimal old cs).toNat =
      (old.toNat * 10 ^ cs.length + Nat.ofDigits 10 (cs.reverse.map dval)) % 2 ^ 112 := by
  rw [← BitVec.toNat_ofNat, ← loadDecimal_ofNat, BitVec.ofNat_toNat, BitVec.setWidth_eq]

theorem loadDecimal_zero_toNat (cs : List Char8) :
    (loadDecimal 0 cs).toNat = Nat.ofDigits 10 (cs.reverse.map dval) % 2 ^ 112 := by
  have hzero : (0 : Large).toNat = 0 := rfl
  rw [loadDecimal_toNat, hzero, Nat.zero_mul, Nat.zero_add]

/-! The multiplier (R192). -/

/-- Adding under the control of a cell adds the multiple by that cell. -/
theorem ite_getLsbD_add (t acc r : Large) (i : Nat) :
    (if t.getLsbD i then add112 acc r false else acc) = acc + r * BitVec.ofNat 112 (t.toNat / 2 ^ i % 2) := by
  rw [← toNat_getLsbD, add112_false]
  cases t.getLsbD i <;> simp

/-- The turns from iteration `i` add the multiple by the cells of `t` that they examine. -/
theorem multiplyLoop_eq (t : Large) (turns i : Nat) (acc r : Large) :
    multiplyLoop t turns i acc r = acc + r * BitVec.ofNat 112 (t.toNat / 2 ^ i % 2 ^ turns) := by
  induction turns generalizing i acc r with
  | zero => simp [multiplyLoop, Nat.mod_one]
  | succ turns ih =>
    have hsplit : t.toNat / 2 ^ i % 2 ^ (turns + 1) =
        t.toNat / 2 ^ i % 2 + 2 * (t.toNat / 2 ^ (i + 1) % 2 ^ turns) := by
      rw [Nat.pow_succ', Nat.mod_mul, Nat.div_div_eq_div_mul, ← Nat.pow_succ]
    have hdouble : r <<< 1 = r * BitVec.ofNat 112 2 := BitVec.shiftLeft_eq_mul_twoPow r 1
    rw [multiplyLoop, ih, ite_getLsbD_add, hsplit, BitVec.ofNat_add, BitVec.ofNat_mul, hdouble]
    ring

theorem mul112_eq (r t : Large) : mul112 r t = r * multiplierWindow t := by
  rw [mul112, multiplyLoop_eq, Nat.pow_zero, Nat.div_one, zero_add, multiplierWindow]

theorem mul_multiplierWindow_toNat (r t : Large) :
    (r * multiplierWindow t).toNat = r.toNat * (t.toNat % 2 ^ 102) % 2 ^ 112 := by
  rw [multiplierWindow, BitVec.toNat_mul, BitVec.toNat_ofNat, Nat.mul_mod_mod, Config.lnMulIter]

/-- Settles O34: the ripple's carries are those of binary addition, and the inverse plus one is the negative. -/
theorem cellAdderIsAddition : Obligations.CellAdderIsAddition := fun a b cin =>
  ⟨add112_toNat a b cin, sub112_eq a b, sub112_eq_add112_not a b⟩

end Sys2Proof.Machine
end

section
/-! The LN commands (R185 to R195): one rule for each success. -/

namespace Sys2Proof.Machine

variable {s : State} {ra rb : RegNum} {la lb k : Ix}

theorem onlyL_setL (r : Ix) (v : Large) : OnlyL s (s.setL r v).succeed r :=
  ⟨rfl, fun q hq => s.getL_setL_other r q v hq⟩

/-- A command that writes one large-number register, and nothing else. -/
theorem exists_onlyL_of_exec {i : Instr} {v : Large} (hexec : exec i s = .next (s.setL la v).succeed) :
    ∃ t, exec i s = .next t ∧ OnlyL s t la ∧ t.getL la = v :=
  ⟨_, hexec, onlyL_setL la v, by rw [State.getL_succeed, State.getL_setL_same]⟩

/-! Success. -/

theorem exec_lnClr : exec (.lnClr la) s = .next (s.setL la 0).succeed := exec_eq_of_ok rfl rfl

theorem exec_lnAdd : exec (.lnAdd la lb) s = .next (s.setL la (s.getL la + s.getL lb)).succeed := exec_eq_of_ok rfl rfl

theorem exec_lnSub : exec (.lnSub la lb) s = .next (s.setL la (s.getL la - s.getL lb)).succeed := exec_eq_of_ok rfl rfl

theorem exec_lnShu : exec (.lnShu la) s = .next (s.setL la (s.getL la <<< 1)).succeed := exec_eq_of_ok rfl rfl

theorem exec_lnShd : exec (.lnShd la) s = .next (s.setL la (s.getL la >>> 1)).succeed := exec_eq_of_ok rfl rfl

/-- `LN.CMP` writes what the scan finds (R190). -/
theorem exec_lnCmp :
    exec (.lnCmp ra la lb) s = .next (s.setX ra (bitWord (scanCompare (s.getL la) (s.getL lb) 104))).succeed := by
  rw [scanCompare_eq]
  exact exec_eq_of_ok rfl rfl

theorem exec_lnLdec (h : ∀ c ∈ s.getC k, isDigit c = true) :
    exec (.lnLdec la k) s =
      .next (s.setL la (loadDecimal (if s.cfg.lnLoadClears then 0 else s.getL la) (s.getC k))).succeed :=
  exec_eq_of_ok rfl (if_pos (List.all_eq_true.mpr h))

theorem exec_lnMul (h : ∀ c ∈ s.getC k, isDigit c = true) :
    exec (.lnMul la k) s =
      .next (s.setL la (s.getL la * multiplierWindow (loadDecimal 0 (s.getC k)))).succeed :=
  exec_eq_of_ok rfl (if_pos (List.all_eq_true.mpr h))

theorem exec_lnGetb (h : s.num rb < Config.lnCells) :
    exec (.lnGetb ra rb la) s = .next (s.setX ra (bitWord ((s.getL la).getLsbD (s.num rb)))).succeed :=
  exec_eq_of_ok rfl (if_neg (Nat.not_le.mpr h))

theorem exec_lnSetb (h : s.num rb < Config.lnCells) :
    exec (.lnSetb ra rb la) s = .next (s.setL la (setCell (s.getL la) (s.num rb) (s.bitOf ra))).succeed :=
  exec_eq_of_ok rfl (if_neg (Nat.not_le.mpr h))

/-! Shifts by one cell (R188, R189). -/

theorem getLsbD_shiftLeft_one_zero (v : Large) : (v <<< 1).getLsbD 0 = false := by
  rw [BitVec.getLsbD_shiftLeft]
  simp

theorem getLsbD_shiftLeft_one_succ (v : Large) {p : Nat} (hp : p < 111) : (v <<< 1).getLsbD (p + 1) = v.getLsbD p := by
  rw [BitVec.getLsbD_shiftLeft, decide_eq_true (by omega : p + 1 < 112)]
  simp

theorem toNat_shiftLeft_one (v : Large) : (v <<< 1).toNat = 2 * v.toNat % 2 ^ 112 := by
  rw [BitVec.toNat_shiftLeft, Nat.shiftLeft_eq, Nat.pow_one, Nat.mul_comm]

theorem getLsbD_ushiftRight_one_top (v : Large) : (v >>> 1).getLsbD 111 = false := by
  rw [BitVec.getLsbD_ushiftRight, BitVec.getLsbD_of_ge _ _ (by decide)]

theorem getLsbD_ushiftRight_one (v : Large) (p : Nat) : (v >>> 1).getLsbD p = v.getLsbD (p + 1) := by
  rw [BitVec.getLsbD_ushiftRight, Nat.add_comm]

theorem toNat_ushiftRight_one (v : Large) : (v >>> 1).toNat = v.toNat / 2 := by
  rw [BitVec.toNat_ushiftRight, Nat.shiftRight_eq_div_pow, Nat.pow_one]

/-! The obligations. -/

/-- Settles O33: the subtraction after the addition reads the other register as it was. -/
theorem addThenSubtractRestores : Obligations.AddThenSubtractRestores := by
  intro s ra la lb
  obtain ⟨t, hadd, haddOnly, hsum⟩ := exists_onlyL_of_exec (exec_lnAdd (s := s) (la := la) (lb := lb))
  obtain ⟨u, hsub, hsubOnly, hdiff⟩ := exists_onlyL_of_exec (exec_lnSub (s := s) (la := la) (lb := lb))
  refine ⟨t, u, hadd, haddOnly, by rw [hsum, BitVec.toNat_add], hsub, hsubOnly, ?diff, fun hne => ?restore, ?self⟩
  case diff =>
    rw [hdiff, BitVec.toNat_sub, ← Nat.sub_add_comm (s.getL lb).isLt.le, Nat.add_comm (s.getL la).toNat]
  case restore =>
    obtain ⟨v, hexec, -, hback⟩ := exists_onlyL_of_exec (exec_lnSub (s := t) (la := la) (lb := lb))
    have hsame : t.getL lb = s.getL lb := haddOnly.2 lb hne.symm
    exact ⟨v, hexec, by rw [hback, hsum, hsame, BitVec.add_sub_cancel]⟩
  case self =>
    refine ⟨_, exec_lnCmp, ?_⟩
    rw [State.getX_succeed, State.getX_setX_same, scanCompare_eq, decide_eq_false (Nat.lt_irrefl _)]
    rfl

/-- Settles O35: each cell of the result, by the position it came from. -/
theorem cellCommands : Obligations.CellCommands := by
  refine fun s ra rb la => ⟨?clear, ?up, ?down, fun hi => ⟨?get, ?set⟩⟩
  case clear =>
    obtain ⟨t, hexec, honly, hv⟩ := exists_onlyL_of_exec (exec_lnClr (s := s) (la := la))
    exact ⟨t, hexec, honly, fun p => by rw [hv]; exact BitVec.getLsbD_zero⟩
  case up =>
    obtain ⟨t, hexec, honly, hv⟩ := exists_onlyL_of_exec (exec_lnShu (s := s) (la := la))
    refine ⟨t, hexec, honly, ?_⟩
    rw [hv]
    exact ⟨getLsbD_shiftLeft_one_zero _, fun p => getLsbD_shiftLeft_one_succ _, toNat_shiftLeft_one _⟩
  case down =>
    obtain ⟨t, hexec, honly, hv⟩ := exists_onlyL_of_exec (exec_lnShd (s := s) (la := la))
    refine ⟨t, hexec, honly, ?_⟩
    rw [hv]
    exact ⟨getLsbD_ushiftRight_one_top _, fun p _ => getLsbD_ushiftRight_one _ p, toNat_ushiftRight_one _⟩
  case get =>
    obtain ⟨t, hexec, hval, honly⟩ := exists_onlyX_of_exec (exec_lnGetb (ra := ra) (la := la) hi) (bitWord_toNat _)
    exact ⟨t, hexec, honly, hval⟩
  case set =>
    obtain ⟨t, hexec, honly, hv⟩ := exists_onlyL_of_exec (exec_lnSetb (ra := ra) (la := la) hi)
    exact ⟨t, hexec, honly, fun p hp => by rw [hv, getLsbD_setCell _ _ _ hp]; rfl⟩

/-- Settles O36: the scan compares the values of the cells below 104. -/
theorem compareScansDown : Obligations.CompareScansDown := by
  intro s ra la lb
  obtain ⟨t, hexec, hval, honly⟩ :=
    exists_onlyX_of_exec (exec_lnCmp (s := s) (ra := ra) (la := la) (lb := lb)) (bitWord_toNat _)
  refine ⟨t, hexec, honly, hval, ?larger, fun heq => ?equal⟩
  case larger => rw [hval, scanCompare_eq, Bool.toNat_eq_one, decide_eq_true_eq]
  case equal =>
    rw [heq, scanCompare_eq, decide_eq_false (Nat.lt_irrefl _)] at hval
    exact BitVec.eq_of_toNat_eq hval

/-- Settles O37: both loops keep the value that the characters and the cells read so far give. -/
theorem decimalLoadAndMultiply : Obligations.DecimalLoadAndMultiply := by
  refine fun s la k hdigits => ⟨?load, ?multiply⟩
  case load =>
    obtain ⟨t, hexec, honly, hv⟩ := exists_onlyL_of_exec (exec_lnLdec (la := la) hdigits)
    refine ⟨t, hexec, honly, ?_, by rw [hv, loadCells_eq_loadDecimal]⟩
    rw [hv, loadDecimal_toNat]
    cases s.cfg.lnLoadClears <;> simp
  case multiply =>
    obtain ⟨t, hexec, honly, hv⟩ := exists_onlyL_of_exec (exec_lnMul (la := la) hdigits)
    refine ⟨t, hexec, honly, ?_, by rw [hv, mul112_eq, loadCells_eq_loadDecimal]⟩
    rw [hv, mul_multiplierWindow_toNat, loadDecimal_zero_toNat]

end Sys2Proof.Machine
end

section
/-! The Reed-Solomon unit under one move (R217, R222): only `RS.INIT` and reset replace it, and only `RS.INIT` and the
encode commands write the check symbols. -/

namespace Sys2Proof.Machine

/-- The unit `RS.INIT` commits once the generator is built (R217). -/
def rsUnitOf (poly : Word) (nsym index : Nat) (gen : List Sym) : RsUnit :=
  { valid := true
    poly := poly.setWidth 17
    m := BitVec.ofNat 5 poly.toNat.log2
    logmod := BitVec.ofNat 16 (tablesOf poly).logmod
    nsym := BitVec.ofNat 16 nsym
    idx := BitVec.ofNat 16 index
    log := (tablesOf poly).log
    alog := (tablesOf poly).alog
    gen := gen
    ecc := [] }

/-- `RS.INIT` builds a unit exactly when it can build the generator. -/
theorem rsBuild_eq_map (poly : Word) (nsym index : Nat) :
    rsBuild poly nsym index = (generator (tablesOf poly) index nsym).map (rsUnitOf poly nsym index) := by
  simp only [rsBuild]
  cases generator (tablesOf poly) index nsym <;> rfl

/-- On operands of R212 the registers of the built unit hold the triple uncut (R30). -/
theorem rsBuild_triple {p : Params} (hp : p.Ok) {poly : Word} {nsym index : Nat} {u : RsUnit}
    (hops : rsOperandsOk p poly.toNat nsym = true) (hindex : index < 2 ^ 16) (hbuild : rsBuild poly nsym index = some u) :
    u.poly.toNat = poly.toNat ∧ u.nsym.toNat = nsym ∧ u.idx.toNat = index := by
  obtain ⟨hpoly, hm, -, hnsym⟩ := rsOperandsOk_iff.mp hops
  have hfield := hp.field
  have hsymbols := hp.symbols
  have hpolyLt : poly.toNat < 2 ^ 17 := (Nat.log2_lt (by omega)).mp (by omega)
  rw [rsBuild_eq_map, Option.map_eq_some_iff] at hbuild
  obtain ⟨g, -, rfl⟩ := hbuild
  exact ⟨(BitVec.toNat_setWidth ..).trans (Nat.mod_eq_of_lt hpolyLt), Nat.mod_eq_of_lt (by omega),
    Nat.mod_eq_of_lt hindex⟩

/-- What a move can make of the Reed-Solomon unit (R217 to R222, R400). -/
inductive UnitChange (p : Params) (u : RsUnit) : RsUnit → Prop
  | same : UnitChange p u u
  | reset : UnitChange p u RsUnit.empty
  | encoded (r : List Sym) (hvalid : u.valid = true) : UnitChange p u { u with ecc := r }
  | built {poly : Word} {nsym index : Nat} {v : RsUnit} (hops : rsOperandsOk p poly.toNat nsym = true)
      (hindex : index < 2 ^ 16) (hbuild : rsBuild poly nsym index = some v) : UnitChange p u v

/-- `t` has the parameters of `s`, and a unit that one move can make of the unit of `s`. -/
def KeepsUnit (s t : State) : Prop := t.cfg = s.cfg ∧ UnitChange s.cfg s.rs t.rs

variable {s t : State}

theorem rsEncode_keepsUnit {data : List Sym} (hvalid : s.rs.valid = true) (h : rsEncode s data = .ok t) :
    KeepsUnit s t := by
  unfold rsEncode at h
  split at h
  · split at h
    · next r _ =>
      obtain rfl := Except.ok.inj h
      exact ⟨rfl, .encoded r hvalid⟩
    · exact nomatch h
  · exact nomatch h

/-- The commands whose footprint holds some of the unit. -/
theorem footprint_unit (i : Instr) :
    ((footprint i).tables = false ∧ (footprint i).ecc = false) ∨ (∃ ra rb imm16, i = .rsInit ra rb imm16) ∨
      (∃ k, i = .rsEncn k) ∨ ∃ j, i = .rsEncw j := by
  cases i with
  | rsInit ra rb imm16 => exact .inr (.inl ⟨ra, rb, imm16, rfl⟩)
  | rsEncn k => exact .inr (.inr (.inl ⟨k, rfl⟩))
  | rsEncw j => exact .inr (.inr (.inr ⟨j, rfl⟩))
  | bclr | bput =>
    simp only [footprint]
    split <;> exact .inl ⟨rfl, rfl⟩
  | _ => exact .inl ⟨rfl, rfl⟩

/-- A failure keeps the unit, so a command does when its result does. -/
theorem KeepsUnit.finish {i : Instr} {result : Except ErrorKind State} (h : ∀ u, result = .ok u → KeepsUnit s u)
    (hexec : finish s i result = .next t) : KeepsUnit s t := by
  obtain ⟨u, hu, rfl⟩ | ⟨k, -, rfl⟩ := finish_next hexec
  · exact h u hu
  · exact ⟨rfl, .same⟩

/-- Outside the footprint of the other commands the unit stays; the three RS commands test their operands and `RSVALID`
first. -/
theorem exec_keepsUnit {i : Instr} (h : exec i s = .next t) : KeepsUnit s t := by
  by_cases hsrst : i = .srst
  · subst hsrst
    obtain rfl : s.resetAll.succeed = t := Host.Outcome.next.inj h
    exact ⟨rfl, .reset⟩
  obtain ⟨htables, hecc⟩ | ⟨ra, rb, imm16, rfl⟩ | ⟨k, rfl⟩ | ⟨j, rfl⟩ := footprint_unit i
  · have hwithin := commandsStayWithinFootprint i s t hsrst h
    have hrs : t.rs = s.rs := by rw [hwithin.tables htables, hwithin.ecc hecc]
    exact ⟨hwithin.cfg, hrs ▸ .same⟩
  · refine KeepsUnit.finish (fun u hu => ?_) h
    split at hu
    · next hops =>
      split at hu
      · next v hbuild =>
        obtain rfl := Except.ok.inj hu
        exact ⟨rfl, .built hops imm16.isLt hbuild⟩
      · exact nomatch hu
    · exact nomatch hu
  · refine KeepsUnit.finish (fun u hu => ?_) h
    split at hu
    · exact nomatch hu
    · next hvalid =>
      split at hu
      · exact nomatch hu
      · exact rsEncode_keepsUnit (by simpa using hvalid) hu
  · refine KeepsUnit.finish (fun u hu => ?_) h
    split at hu
    · exact nomatch hu
    · next hvalid => exact rsEncode_keepsUnit (by simpa using hvalid) hu

theorem runWord_keepsUnit {w : Word} (h : runWord w s = .next t) : KeepsUnit s t := by
  unfold runWord at h
  split at h
  · exact exec_keepsUnit h
  · obtain rfl : s.raise .illegalCommand w = t := Host.Outcome.next.inj h
    exact ⟨rfl, .same⟩

theorem hostMove_keepsUnit {m : HostMove} (h : hostMove m s = .next t) : KeepsUnit s t := by
  by_cases hreset : m = .reset
  · subst hreset
    obtain rfl : s.resetAll = t := Host.Outcome.next.inj h
    exact ⟨rfl, .reset⟩
  by_cases hissue : ∃ w, m = .issue w
  · obtain ⟨w, rfl⟩ := hissue
    exact runWord_keepsUnit h
  · obtain ⟨hcfg, -, -, -, hrs, -⟩ := hostMove_protected (fun w hw => hissue ⟨w, hw⟩) hreset h
    exact ⟨hcfg, hrs ▸ .same⟩

/-- An idle step changes nothing, and taking the move off the host's list does not reach the unit. -/
theorem step_keepsUnit (h : step s = .next t) : KeepsUnit s t := by
  unfold step at h
  split at h
  · obtain rfl := Host.Outcome.next.inj h
    exact ⟨rfl, .same⟩
  · next m rest _ =>
    have hmove : KeepsUnit (s.takeMove rest) t := hostMove_keepsUnit h
    exact hmove

/-- A move that keeps the unit, keeps it built. -/
theorem KeepsUnit.rsBuilt (h : KeepsUnit s t) (hp : s.cfg.Ok) (hs : RsBuilt s) : RsBuilt t := by
  obtain ⟨hcfg, hunit⟩ := h
  unfold RsBuilt
  rw [hcfg]
  generalize t.rs = v at hunit
  cases hunit with
  | same => exact hs
  | reset => exact .inl rfl
  | encoded r hvalid =>
    obtain hempty | ⟨poly, nsym, index, u, hops, hindex, hbuild, hpoly, hnsym, hidx, hrs⟩ := hs
    · rw [hempty] at hvalid
      exact nomatch hvalid
    · refine .inr ⟨poly, nsym, index, u, hops, hindex, hbuild, hpoly, hnsym, hidx, ?_⟩
      rw [hrs]
  | built hops hindex hbuild =>
    obtain ⟨hpoly, hnsym, hidx⟩ := rsBuild_triple hp hops hindex hbuild
    exact .inr ⟨_, _, _, _, hops, hindex, hbuild, hpoly, hnsym, hidx, rfl⟩

/-- Settles O15: a step keeps the unit but for a reset, a new run of the encoder and a new build, and each of these leaves
what `RS.INIT` builds from the registers. -/
theorem rsTablesStayBuilt : Obligations.RsTablesStayBuilt := fun _ _ hp hs hstep =>
  (step_keepsUnit hstep).rsBuilt hp hs

end Sys2Proof.Machine
end

section
/-! The RS commands by their results: the reads (R223 to R226), the tests of every command (R212, R217, R219, R220, R403),
and the two encoders held against each other (R229). -/

namespace Sys2Proof.Machine

variable {s : State} {ra rb : RegNum} {imm16 : BitVec 16} {k : Ix} {j : BitVec 1}

/-! Reads. -/

/-- A read that finds an element writes it, zero-extended, to its register alone. -/
theorem readSym_completes {i : Instr} {result : Except ErrorKind State} {o : Option Sym} {v : Sym}
    (hexec : exec i s = finish s i result) (hresult : result = readSym s ra o) (ho : o = some v) :
    ∃ t, exec i s = .next t ∧ (t.getX ra).toNat = v.toNat ∧ OnlyX s t ra := by
  refine exists_onlyX_of_exec (v := v.setWidth 32) (exec_eq_of_ok hexec ?_) (BitVec.toNat_setWidth_of_le (by decide))
  rw [hresult, ho, readSym_some]

/-- The test of a table or generator read passes when the unit is valid and the index within its bound. -/
theorem readTest_passes {c : Prop} [Decidable c] (hvalid : s.rs.valid = true) (hc : ¬c)
    (a b : Except ErrorKind State) : (if !s.rs.valid || decide c then a else b) = b := by
  simp [hvalid, hc]

/-- It fails when the unit is not valid. -/
theorem readTest_invalid (hvalid : s.rs.valid = false) (c : Bool) (a b : Except ErrorKind State) :
    (if !s.rs.valid || c then a else b) = a := by
  simp [hvalid]

/-- It fails when the index is beyond its bound. -/
theorem readTest_beyond {c : Prop} [Decidable c] (hc : c) (a b : Except ErrorKind State) :
    (if !s.rs.valid || decide c then a else b) = a := by
  simp [hc]

/-- A read after the test fails with `OutOfRange` when it finds nothing, whatever the test says. -/
theorem readTest_nothing {c : Bool} {o : Option Sym} (ho : o = none) :
    (if c then .error .outOfRange else readSym s ra o) = .error .outOfRange := by
  rw [ho, readSym_none, ite_self]

/-- Settles O43: each read finds its element behind the tests, which the hypotheses pass. -/
theorem reedSolomonReads : Obligations.ReedSolomonReads := by
  refine fun s ra rb v => ⟨fun h => ?ecc, fun hvalid hle h => ?gen, fun hvalid hlt h => ?log,
    fun hvalid hlt h => ?alog⟩
  case ecc => exact readSym_completes rfl rfl h
  case gen => exact readSym_completes rfl (readTest_passes hvalid (Nat.not_lt.mpr hle) _ _) h
  case log => exact readSym_completes rfl (readTest_passes hvalid (Nat.not_le.mpr hlt) _ _) (congrArg Option.join h)
  case alog => exact readSym_completes rfl (readTest_passes hvalid (Nat.not_le.mpr hlt) _ _) (congrArg Option.join h)

/-! `RS.INIT`. -/

/-- R211, R212: an operand out of range, with the field exponent read off the polynomial's size. -/
theorem rsOperandsOk_eq_false {p : Params} {poly nsym : Nat}
    (h : poly < 2 ∨ 2 ^ (p.rsMMax + 1) ≤ poly ∨ nsym = 0 ∨ p.rsNsymMax < nsym) : rsOperandsOk p poly nsym = false := by
  rw [Bool.eq_false_iff, ne_eq, rsOperandsOk_iff]
  rintro ⟨hpoly, hm, hnsym, hnsymMax⟩
  have hlt : poly < 2 ^ (p.rsMMax + 1) := (Nat.log2_lt (by omega)).mp (by omega)
  omega

theorem rsInit_fails_operands (h : rsOperandsOk s.cfg (s.num ra) (s.num rb) = false) :
    FailsWith (.rsInit ra rb imm16) s .unsupportedConfiguration :=
  failsWith_of_error rfl (if_neg (Bool.eq_false_iff.mp h))

/-- The build comes after the test of the operands, and its failure is of the same kind. -/
theorem rsInit_fails_build (h : generator (tablesOf (s.getX ra)) imm16.toNat (s.getX rb).toNat = none) :
    FailsWith (.rsInit ra rb imm16) s .unsupportedConfiguration := by
  have hbuild : rsBuild (s.getX ra) (s.num rb) imm16.toNat = none := by
    rw [rsBuild_eq_map, State.num, h, Option.map_none]
  refine failsWith_of_error rfl ?_
  rw [hbuild]
  exact ite_self _

/-! The encode commands. -/

theorem rsEncode_of_run {data r : List Sym} (hdata : ∀ d ∈ data, d.toNat < 2 ^ s.rs.m.toNat)
    (hrun : s.rs.encode data = some r) : rsEncode s data = .ok (s.setRs { s.rs with ecc := r }) := by
  rw [rsEncode, if_pos (by simpa using hdata), hrun]

theorem rsEncode_of_unwritten {data : List Sym} (hdata : ∀ d ∈ data, d.toNat < 2 ^ s.rs.m.toNat)
    (hrun : s.rs.encode data = none) : rsEncode s data = .error .unsupportedConfiguration := by
  rw [rsEncode, if_pos (by simpa using hdata), hrun]

theorem rsEncode_of_symbol_beyond {data : List Sym} (h : ∃ d ∈ data, 2 ^ s.rs.m.toNat ≤ d.toNat) :
    rsEncode s data = .error .outOfRange := by
  rw [rsEncode, if_neg (by simpa using h)]

/-- The tests of the narrow encoder before its data (R219). -/
theorem rsEncn_result (hvalid : s.rs.valid = true) (hm : s.rs.m.toNat ≤ 8) (a b c : Except ErrorKind State) :
    (if !s.rs.valid then a else if 8 < s.rs.m.toNat then b else c) = c := by
  simp [hvalid, Nat.not_lt.mpr hm]

/-- The test of the wide encoder before its data (R220). -/
theorem rsEncw_result (hvalid : s.rs.valid = true) (a b : Except ErrorKind State) :
    (if !s.rs.valid then a else b) = b := by
  simp [hvalid]

/-- A narrow symbol keeps its value in a 16-bit cell (R229). -/
theorem widened_toNat (c : Char8) : (c.setWidth 16).toNat = c.toNat := BitVec.toNat_setWidth_of_le (by decide)

theorem widened_lt {cs : List Char8} {n : Nat} (h : ∀ c ∈ cs, c.toNat < n) :
    ∀ d ∈ cs.map (BitVec.setWidth 16), d.toNat < n :=
  List.forall_mem_map.mpr fun c hc => (widened_toNat c).trans_lt (h c hc)

theorem widened_beyond {cs : List Char8} {n : Nat} (h : ∃ c ∈ cs, n ≤ c.toNat) :
    ∃ d ∈ cs.map (BitVec.setWidth 16), n ≤ d.toNat := by
  obtain ⟨c, hc, hle⟩ := h
  exact ⟨_, List.mem_map_of_mem hc, hle.trans_eq (widened_toNat c).symm⟩

theorem exec_rsEncn {r : List Sym} (hvalid : s.rs.valid = true) (hm : s.rs.m.toNat ≤ 8)
    (hdata : ∀ c ∈ s.getC k, c.toNat < 2 ^ s.rs.m.toNat)
    (hrun : s.rs.encode ((s.getC k).map (BitVec.setWidth 16)) = some r) :
    exec (.rsEncn k) s = .next (s.setRs { s.rs with ecc := r }).succeed :=
  exec_eq_of_ok rfl ((rsEncn_result hvalid hm ..).trans (rsEncode_of_run (widened_lt hdata) hrun))

theorem exec_rsEncw {r : List Sym} (hvalid : s.rs.valid = true)
    (hdata : ∀ d ∈ s.getS j, d.toNat < 2 ^ s.rs.m.toNat) (hrun : s.rs.encode (s.getS j) = some r) :
    exec (.rsEncw j) s = .next (s.setRs { s.rs with ecc := r }).succeed :=
  exec_eq_of_ok rfl ((rsEncw_result hvalid ..).trans (rsEncode_of_run hdata hrun))

/-- In a field of at most 256 elements the two encoders come to one result on the same symbols (R229). -/
theorem encoders_same_result (hm : s.rs.m.toNat ≤ 8) (hdata : s.getS j = (s.getC k).map (BitVec.setWidth 16)) :
    ∃ result, exec (.rsEncn k) s = finish s (.rsEncn k) result ∧ exec (.rsEncw j) s = finish s (.rsEncw j) result := by
  refine ⟨_, rfl, ?_⟩
  rw [if_neg (Nat.not_lt.mpr hm), ← hdata]
  rfl

/-- Settles O42: one result ends both commands, and a failure differs in `ECMD` alone. -/
theorem narrowAndWideAgree : Obligations.NarrowAndWideAgree := by
  intro s t u k j hm hdata hnarrow hwide
  obtain ⟨result, hn, hw⟩ := encoders_same_result hm hdata
  rw [hn] at hnarrow
  rw [hw] at hwide
  cases result with
  | ok v =>
    obtain rfl := Host.Outcome.next.inj hnarrow
    obtain rfl := Host.Outcome.next.inj hwide
    exact ⟨rfl, rfl, rfl, fun _ => rfl⟩
  | error kind =>
    obtain rfl := Host.Outcome.next.inj hnarrow
    obtain rfl := Host.Outcome.next.inj hwide
    exact ⟨rfl, rfl, rfl, fun h => absurd h (failStatus_ne_zero kind)⟩

/-! Unwritten entries (R228). -/

/-- A list with a missing result does not collect. -/
theorem collect_eq_none_of_mem {vs : List (Option Sym)} (h : none ∈ vs) : collect vs = none := by
  rw [Option.eq_none_iff_forall_ne_some]
  intro r hr
  rw [collect_some.mp hr] at h
  simp at h

/-- R214: two non-zero factors whose logarithms are not both written have no product. -/
theorem Tables.gfmul_eq_none {t : Tables} {a b : Sym} (ha : a ≠ 0) (hb : b ≠ 0)
    (h : t.logOf a = none ∨ t.logOf b = none) : t.gfmul a b = none := by
  rw [Tables.gfmul, if_neg (not_or.mpr ⟨ha, hb⟩)]
  cases hlogb : t.logOf b with
  | none => rfl
  | some l =>
    have hloga : t.logOf a = none := h.resolve_right (by simp [hlogb])
    simp only [Tables.scale, hloga]

theorem Tables.logOf_eq_none {t : Tables} {a : Sym} (h : t.log[a.toNat]? = some none) : t.logOf a = none := by
  rw [Tables.logOf, h]
  rfl

/-- R218: the feedback of a zero register is the symbol itself. -/
theorem lfsrStep_zeros (t : Tables) (gen : List Sym) (n : Nat) (d : Sym) :
    lfsrStep t gen (List.replicate n 0) d =
      collect (List.zipWith (lfsrCell t d) (gen.take n) (List.replicate (n + 1) 0)) := by
  have hlast : (List.replicate n (0 : Sym)).getLastD 0 = 0 := by
    rw [List.getLastD_eq_getLast?, List.getLast?_replicate]
    split <;> rfl
  have hfeedback : (0 : Sym) ^^^ d = d := BitVec.zero_xor
  rw [lfsrStep, hlast, hfeedback, List.length_replicate]
  rfl

/-- A cell of the register whose product is missing leaves the first turn without a result. -/
theorem lfsrStep_zeros_eq_none {t : Tables} {gen : List Sym} {n i : Nat} {d g : Sym} (hi : i < n)
    (hg : gen[i]? = some g) (hmul : t.gfmul d g = none) : lfsrStep t gen (List.replicate n 0) d = none := by
  rw [lfsrStep_zeros]
  refine collect_eq_none_of_mem (List.mem_of_getElem? (i := i) ?_)
  rw [List.getElem?_zipWith, List.getElem?_take_of_lt hi, hg, List.getElem?_replicate, if_pos (by omega)]
  simp [lfsrCell, hmul]

theorem encode_first_symbol_eq_none {u : RsUnit} {d g : Sym} {i : Nat} (rest : List Sym) (hd : d ≠ 0)
    (hi : i < u.nsym.toNat) (hg : u.gen[i]? = some g) (hg0 : g ≠ 0)
    (hlog : u.log[d.toNat]? = some none ∨ u.log[g.toNat]? = some none) : u.encode (d :: rest) = none := by
  have hnone : u.tables.logOf d = none ∨ u.tables.logOf g = none :=
    hlog.imp Tables.logOf_eq_none Tables.logOf_eq_none
  rw [RsUnit.encode, lfsrRun, lfsrStep_zeros_eq_none hi hg (Tables.gfmul_eq_none hd hg0 hnone)]

/-- Settles O44: each kind is that of the first test the input fails. -/
theorem reedSolomonErrors : Obligations.ReedSolomonErrors := by
  refine fun s ra rb imm16 k j => ⟨fun h => rsInit_fails_operands (rsOperandsOk_eq_false h), rsInit_fails_build,
    fun hvalid => ?invalid, fun hm => ?wide, fun hvalid hm h => ?narrowSymbol, fun hvalid h => ?wideSymbol,
    fun hvalid hm hdata hrun => ?narrowRun, fun hvalid hdata hrun => ?wideRun,
    fun d rest i g _ _ hd hi hg hg0 hlog => encode_first_symbol_eq_none rest hd hi hg hg0 hlog,
    fun h => ?ecc, fun h => ?gen, fun h => ?tables, fun h => ?log, fun h => ?alog⟩
  case invalid =>
    have htest (a b : Except ErrorKind State) : (if !s.rs.valid then a else b) = a := by simp [hvalid]
    exact ⟨failsWith_of_error rfl (htest _ _), failsWith_of_error rfl (htest _ _),
      failsWith_of_error rfl (readTest_invalid hvalid ..), failsWith_of_error rfl (readTest_invalid hvalid ..),
      failsWith_of_error rfl (readTest_invalid hvalid ..)⟩
  case wide =>
    refine failsWith_of_error rfl ?_
    rw [if_pos hm]
    exact ite_self _
  case narrowSymbol =>
    exact failsWith_of_error rfl
      ((rsEncn_result hvalid hm ..).trans (rsEncode_of_symbol_beyond (widened_beyond h)))
  case wideSymbol =>
    exact failsWith_of_error rfl ((rsEncw_result hvalid ..).trans (rsEncode_of_symbol_beyond h))
  case narrowRun =>
    exact failsWith_of_error rfl
      ((rsEncn_result hvalid hm ..).trans (rsEncode_of_unwritten (widened_lt hdata) hrun))
  case wideRun =>
    exact failsWith_of_error rfl ((rsEncw_result hvalid ..).trans (rsEncode_of_unwritten hdata hrun))
  case ecc => exact failsWith_of_error rfl (congrArg (readSym s ra) (List.getElem?_eq_none h))
  case gen => exact failsWith_of_error rfl (readTest_beyond h ..)
  case tables =>
    exact ⟨failsWith_of_error rfl (readTest_beyond h ..), failsWith_of_error rfl (readTest_beyond h ..)⟩
  case log => exact failsWith_of_error rfl (readTest_nothing (congrArg Option.join h))
  case alog => exact failsWith_of_error rfl (readTest_nothing (congrArg Option.join h))

end Sys2Proof.Machine
end

section
/-! The shift register (R218): a turn of it, and a turn of long division, are additions of one list of products. The
register after a run is then the remainder (R227), and stays zero on zeros (R221). -/

namespace Sys2Proof.Machine

/-! Lists of results. -/

/-- Where every single result exists and is bounded, so do all of them together. -/
theorem exists_results {f : Sym → Option Sym} {bound : Nat} {cs : List Sym}
    (h : ∀ c ∈ cs, ∃ v, f c = some v ∧ v.toNat < bound) :
    ∃ vs : List Sym, cs.map f = vs.map some ∧ ∀ v ∈ vs, v.toNat < bound := by
  induction cs with
  | nil => exact ⟨[], rfl, fun v hv => absurd hv List.not_mem_nil⟩
  | cons c cs ih =>
    obtain ⟨v, hv, hlt⟩ := h c List.mem_cons_self
    obtain ⟨vs, hvs, hlts⟩ := ih fun c' hc' => h c' (List.mem_cons_of_mem _ hc')
    exact ⟨v :: vs, by rw [List.map_cons, List.map_cons, hv, hvs], List.forall_mem_cons.mpr ⟨hlt, hlts⟩⟩

theorem length_of_results {f : Sym → Option Sym} {cs vs : List Sym} (h : cs.map f = vs.map some) :
    vs.length = cs.length := by
  simpa using (congrArg List.length h).symm

/-- Cells that add a product to their lower neighbour collect to the sum of the two lists. -/
theorem collect_zipWith_xor {cell : Sym → Sym → Option Sym} {f : Sym → Option Sym}
    (hcell : ∀ c l, cell c l = (f c).map (l ^^^ ·)) {cs vs : List Sym} (hvs : cs.map f = vs.map some) (ls : List Sym) :
    collect (List.zipWith cell cs ls) = some (List.zipWith (· ^^^ ·) ls vs) := by
  have hcells : List.zipWith cell cs ls = List.zipWith (fun o l => o.map (l ^^^ ·)) (cs.map f) ls := by
    rw [List.zipWith_map_left, funext₂ hcell]
  rw [collect_some, hcells, hvs, List.zipWith_map_left, List.map_zipWith, List.zipWith_comm]
  simp only [Option.map_some]

theorem lfsrCell_eq_map (t : Tables) (fb c l : Sym) : lfsrCell t fb c l = (t.gfmul fb c).map (l ^^^ ·) := by
  unfold lfsrCell
  cases t.gfmul fb c <;> rfl

/-- Sums of field elements are field elements (R214). -/
theorem zipWith_xor_lt {m : Nat} {as bs : List Sym} (ha : ∀ a ∈ as, a.toNat < 2 ^ m) (hb : ∀ b ∈ bs, b.toNat < 2 ^ m) :
    ∀ c ∈ List.zipWith (· ^^^ ·) as bs, c.toNat < 2 ^ m := by
  intro c hc
  obtain ⟨i, hi, rfl⟩ := List.mem_iff_getElem.mp hc
  rw [List.getElem_zipWith, BitVec.toNat_xor]
  exact Nat.xor_lt_two_pow (ha _ (List.getElem_mem _)) (hb _ (List.getElem_mem _))

/-! Zero data. -/

theorem lfsrStep_zeros_zero (t : Tables) {gen : List Sym} {n : Nat} (hn : n ≤ gen.length) :
    lfsrStep t gen (List.replicate n 0) 0 = some (List.replicate n 0) := by
  have hproducts : (gen.take n).map (t.gfmul 0) = (List.replicate n (0 : Sym)).map some := by
    rw [List.map_replicate, List.eq_replicate_iff]
    exact ⟨by simp [hn], List.forall_mem_map.mpr fun g _ => t.gfmul_zero_left g⟩
  rw [lfsrStep_zeros, collect_zipWith_xor (lfsrCell_eq_map t 0) hproducts, List.zipWith_replicate]
  simp

theorem lfsrRun_zeros (t : Tables) {gen : List Sym} {n : Nat} (hn : n ≤ gen.length) :
    ∀ {data : List Sym}, (∀ d ∈ data, d = 0) → lfsrRun t gen (List.replicate n 0) data = some (List.replicate n 0)
  | [], _ => rfl
  | d :: ds, h => by
    obtain ⟨rfl, hds⟩ := List.forall_mem_cons.mp h
    rw [lfsrRun, lfsrStep_zeros_zero t hn]
    exact lfsrRun_zeros t hn hds

theorem RsUnit.Ok.nsym_le_gen_length {p : Params} {u : RsUnit} (h : u.Ok p) (hvalid : u.valid = true) :
    1 ≤ u.nsym.toNat ∧ u.gen.length = u.nsym.toNat + 1 := by
  rw [RsUnit.Ok, if_pos hvalid] at h
  obtain ⟨-, -, -, hnsym, -, -, -, hlen, -⟩ := h
  exact ⟨hnsym, hlen⟩

/-- Settles O40: no feedback ever becomes other than zero, so no table is read and the register stays as it starts. -/
theorem zeroDataZeroCheck : Obligations.ZeroDataZeroCheck := by
  intro s k j hok hvalid
  obtain ⟨-, hlen⟩ := hok.nsym_le_gen_length hvalid
  have hrun {data : List Sym} (h : ∀ d ∈ data, d = 0) : s.rs.encode data = some (List.replicate s.rs.nsym.toNat 0) :=
    lfsrRun_zeros _ (by omega) h
  have hpos := Nat.two_pow_pos s.rs.m.toNat
  refine ⟨fun hm hzero => ⟨_, exec_rsEncn hvalid hm (fun c hc => ?_) (hrun ?_), rfl⟩,
    fun hzero => ⟨_, exec_rsEncw hvalid (fun d hd => ?_) (hrun hzero), rfl⟩⟩
  · rw [hzero c hc]
    exact hpos
  · exact List.forall_mem_map.mpr fun c hc => by rw [hzero c hc]; rfl
  · rw [hzero d hd]
    exact hpos

/-! Sums at the front of a list. -/

/-- `as` added to the front of a list that is at least as long. -/
def addToFront : List Sym → List Sym → List Sym
  | a :: as, b :: bs => (a ^^^ b) :: addToFront as bs
  | _, bs => bs

theorem addToFront_cons (a b : Sym) (as bs : List Sym) :
    addToFront (a :: as) (b :: bs) = (a ^^^ b) :: addToFront as bs := rfl

@[simp] theorem addToFront_nil_left (bs : List Sym) : addToFront [] bs = bs := rfl

@[simp] theorem addToFront_nil_right (as : List Sym) : addToFront as [] = [] := by cases as <;> rfl

@[simp] theorem addToFront_length (as bs : List Sym) : (addToFront as bs).length = bs.length := by
  induction as generalizing bs with
  | nil => rfl
  | cons a as ih =>
    cases bs with
    | nil => rfl
    | cons b bs => simp [addToFront_cons, ih]

/-- Zeros change nothing. -/
theorem addToFront_zeros (n : Nat) (bs : List Sym) : addToFront (List.replicate n 0) bs = bs := by
  induction n generalizing bs with
  | zero => rfl
  | succ n ih =>
    cases bs with
    | nil => simp
    | cons b bs =>
      rw [List.replicate_succ, addToFront_cons, ih]
      exact congrArg (· :: bs) BitVec.zero_xor

/-- Nor do zeros after what is added. -/
theorem addToFront_append_zero (as bs : List Sym) : addToFront (as ++ [0]) bs = addToFront as bs := by
  induction as generalizing bs with
  | nil => exact addToFront_zeros 1 bs
  | cons a as ih =>
    cases bs with
    | nil => simp
    | cons b bs => rw [List.cons_append, addToFront_cons, addToFront_cons, ih]

/-- To zeros, a list of their number adds as itself. -/
theorem addToFront_replicate_zero (as : List Sym) : addToFront as (List.replicate as.length 0) = as := by
  induction as with
  | nil => rfl
  | cons a as ih =>
    rw [List.length_cons, List.replicate_succ, addToFront_cons, ih]
    exact congrArg (· :: as) BitVec.xor_zero

/-- A sum of two lists is added one after the other. -/
theorem addToFront_zipWith_xor {as bs : List Sym} (h : as.length = bs.length) (cs : List Sym) :
    addToFront (List.zipWith (· ^^^ ·) as bs) cs = addToFront bs (addToFront as cs) := by
  induction as generalizing bs cs with
  | nil =>
    obtain rfl : bs = [] := List.length_eq_zero_iff.mp h.symm
    rfl
  | cons a as ih =>
    cases bs with
    | nil => exact nomatch h
    | cons b bs =>
      cases cs with
      | nil => simp
      | cons c cs =>
        rw [List.zipWith_cons_cons, addToFront_cons, addToFront_cons, addToFront_cons, ih (Nat.succ.inj h),
          BitVec.xor_comm a b, BitVec.xor_assoc]

/-- The two parts of a turn of division, put together. -/
theorem addToFront_eq_append {as bs : List Sym} (h : as.length ≤ bs.length) :
    List.zipWith (· ^^^ ·) (bs.take as.length) as ++ bs.drop as.length = addToFront as bs := by
  induction as generalizing bs with
  | nil => simp
  | cons a as ih =>
    cases bs with
    | nil => exact absurd h (by simp)
    | cons b bs =>
      rw [addToFront_cons, ← ih (Nat.le_of_succ_le_succ h), BitVec.xor_comm a b]
      rfl

/-! The register and the dividend. -/

/-- A turn of division adds the products of the leading coefficient below it (R227). -/
theorem divideTurn_eq {t : Tables} {low ps rest : List Sym} {lead : Sym} (hps : low.map (t.gfmul lead) = ps.map some)
    (hlen : low.length ≤ rest.length) : divideTurn t low lead rest = some (addToFront ps rest) := by
  have hlow : low.length = ps.length := (length_of_results hps).symm
  rw [divideTurn, collect_zipWith_xor (lfsrCell_eq_map t lead) hps, hlow]
  exact congrArg some (addToFront_eq_append (hlow ▸ hlen))

/-- A turn of the register adds the products of the feedback to the shifted cells (R218). -/
theorem lfsrStep_concat {t : Tables} {gen ps init : List Sym} {l d : Sym}
    (hps : (gen.take (init.length + 1)).map (t.gfmul (l ^^^ d)) = ps.map some) (hlen : ps.length = init.length + 1) :
    lfsrStep t gen (init ++ [l]) d = some (List.zipWith (· ^^^ ·) (0 :: init) ps) := by
  have hcut : List.zipWith (· ^^^ ·) (0 :: (init ++ [l])) ps = List.zipWith (· ^^^ ·) (0 :: init) ps := by
    rw [← List.cons_append, ← List.append_nil ps, List.zipWith_append (by simp [hlen])]
    simp
  rw [lfsrStep, List.getLastD_concat, List.length_append, List.length_singleton,
    collect_zipWith_xor (lfsrCell_eq_map t (l ^^^ d)) hps, hcut]

/-- The register's contents, highest power first, added to the front of the data still to come, are the dividend: a symbol
shifted in is a turn of division. -/
theorem lfsrRun_eq_longDivide {t : Tables} {m n : Nat} {gen : List Sym} (hcomplete : t.Complete m) (hn : 1 ≤ n)
    (hgen : n ≤ gen.length) (hgenLt : ∀ g ∈ gen, g.toNat < 2 ^ m) : ∀ {data r : List Sym},
    (∀ d ∈ data, d.toNat < 2 ^ m) → r.length = n → (∀ v ∈ r, v.toNat < 2 ^ m) →
    ∃ r', lfsrRun t gen r data = some r' ∧ r'.length = n ∧ (∀ v ∈ r', v.toNat < 2 ^ m) ∧
      longDivide t (gen.take n).reverse data.length (addToFront r.reverse (data ++ List.replicate n 0)) =
        some r'.reverse
  | [], r, _, hlen, hlt => by
    refine ⟨r, rfl, hlen, hlt, ?_⟩
    rw [← hlen, List.nil_append, ← List.length_reverse, addToFront_replicate_zero]
    rfl
  | d :: ds, r, hdata, hlen, hlt => by
    obtain ⟨hd, hds⟩ := List.forall_mem_cons.mp hdata
    obtain ⟨init, l, rfl⟩ : ∃ init l, r = init ++ [l] :=
      (List.eq_nil_or_concat' r).resolve_left (List.ne_nil_of_length_pos (by omega))
    have hinit : init.length + 1 = n := by simpa using hlen
    have hlead : (l ^^^ d).toNat < 2 ^ m := by
      rw [BitVec.toNat_xor]
      exact Nat.xor_lt_two_pow (hlt l (by simp)) hd
    obtain ⟨ps, hps, hpsLt⟩ := exists_results (f := t.gfmul (l ^^^ d)) (cs := gen.take n) fun g hg =>
      hcomplete.gfmul hlead (hgenLt g (List.mem_of_mem_take hg))
    have hpsLen : ps.length = n := (length_of_results hps).trans (List.length_take_of_le hgen)
    have hstep : lfsrStep t gen (init ++ [l]) d = some (List.zipWith (· ^^^ ·) (0 :: init) ps) :=
      lfsrStep_concat (hinit ▸ hps) (by omega)
    have hzero : (0 : Sym).toNat < 2 ^ m := Nat.two_pow_pos m
    have hnextLt : ∀ v ∈ List.zipWith (· ^^^ ·) (0 :: init) ps, v.toNat < 2 ^ m :=
      zipWith_xor_lt (List.forall_mem_cons.mpr ⟨hzero, fun v hv => hlt v (by simp [hv])⟩) hpsLt
    obtain ⟨r', hrun, hlen', hlt', hdivide⟩ :=
      lfsrRun_eq_longDivide hcomplete hn hgen hgenLt hds (r := List.zipWith (· ^^^ ·) (0 :: init) ps)
        (by simp; omega) hnextLt
    refine ⟨r', by rw [lfsrRun, hstep]; exact hrun, hlen', hlt', ?_⟩
    have hturn : divideTurn t (gen.take n).reverse (l ^^^ d) (addToFront init.reverse (ds ++ List.replicate n 0)) =
        some (addToFront (List.zipWith (· ^^^ ·) (0 :: init) ps).reverse (ds ++ List.replicate n 0)) := by
      rw [divideTurn_eq (ps := ps.reverse) (by rw [List.map_reverse, hps, List.map_reverse]) (by simp),
        List.reverse_zipWith (by simp; omega), List.reverse_cons, addToFront_zipWith_xor (by simp; omega),
        addToFront_append_zero]
    rw [List.reverse_append, List.reverse_singleton, List.singleton_append, List.cons_append, addToFront_cons,
      List.length_cons, longDivide, hturn]
    exact hdivide

/-- R227, for the encoder: the register starts at zero, so the dividend is the data followed by zeros. -/
theorem encode_eq_longDivide {p : Params} {u : RsUnit} (hok : u.Ok p) (hvalid : u.valid = true)
    (hcomplete : u.tables.Complete u.m.toNat) (hgen : ∀ g ∈ u.gen, g.toNat < 2 ^ u.m.toNat) {data : List Sym}
    (hdata : ∀ d ∈ data, d.toNat < 2 ^ u.m.toNat) :
    ∃ r, u.encode data = some r ∧ r.length = u.nsym.toNat ∧ (∀ v ∈ r, v.toNat < 2 ^ u.m.toNat) ∧
      longDivide u.tables (u.gen.take u.nsym.toNat).reverse data.length (data ++ List.replicate u.nsym.toNat 0) =
        some r.reverse := by
  obtain ⟨hnsym, hlen⟩ := hok.nsym_le_gen_length hvalid
  have hzeros : ∀ v ∈ List.replicate u.nsym.toNat (0 : Sym), v.toNat < 2 ^ u.m.toNat := fun v hv => by
    rw [List.eq_of_mem_replicate hv]
    exact Nat.two_pow_pos _
  have h := lfsrRun_eq_longDivide hcomplete hnsym (by omega) hgen hdata List.length_replicate hzeros
  rwa [List.reverse_replicate, addToFront_zeros] at h

/-- Settles O41: the two encoders run on their buffer's symbols, and the run is the division. -/
theorem encodeIsRemainder : Obligations.EncodeIsRemainder := by
  refine fun s k j hok hvalid hcomplete hgen => ⟨fun hm hdata => ?narrow, fun hdata => ?wide⟩
  case narrow =>
    obtain ⟨r, hrun, hlen, hlt, hdivide⟩ := encode_eq_longDivide hok hvalid hcomplete hgen (widened_lt hdata)
    rw [List.length_map] at hdivide
    exact ⟨_, exec_rsEncn hvalid hm hdata hrun, rfl, hlen, hlt, hdivide⟩
  case wide =>
    obtain ⟨r, hrun, hlen, hlt, hdivide⟩ := encode_eq_longDivide hok hvalid hcomplete hgen hdata
    exact ⟨_, exec_rsEncw hvalid hdata hrun, rfl, hlen, hlt, hdivide⟩

end Sys2Proof.Machine
end

section
/-! The table walk (R211, R213, R216): the powers of `x` by recursion, the two tables after any number of turns in terms of
them, and, for complete tables, that the powers are all the non-zero elements, each once. -/

namespace Sys2Proof.Machine

/-- A polynomial of exponent `m` (R211) whose elements fit a table entry. -/
structure HasExponent (poly : Word) (m : Nat) : Prop where
  low : 2 ^ m ≤ poly.toNat
  high : poly.toNat < 2 ^ (m + 1)
  pos : 1 ≤ m
  fits : m ≤ 16

variable {poly : Word} {m : Nat}

theorem HasExponent.log2_eq (h : HasExponent poly m) : poly.toNat.log2 = m :=
  (Nat.log2_eq_iff (Nat.pos_iff_ne_zero.mp ((Nat.two_pow_pos m).trans_le h.low))).mpr ⟨h.low, h.high⟩

theorem HasExponent.size_le (h : HasExponent poly m) : 2 ^ m ≤ 2 ^ 16 := Nat.pow_le_pow_right (by decide) h.fits

theorem HasExponent.two_le_size (h : HasExponent poly m) : 2 ≤ 2 ^ m := Nat.pow_le_pow_right (by decide) h.pos (n := 2)

/-! The powers. -/

/-- Multiplication by `x`, reduced by the polynomial when bit `m` is reached (R213). -/
def timesX (m : Nat) (poly p : Word) : Word :=
  if (p <<< 1).getLsbD m then (p <<< 1) ^^^ poly else p <<< 1

/-- The powers of `x` (R213). -/
def power (m : Nat) (poly : Word) : Nat → Word
  | 0 => 1
  | v + 1 => timesX m poly (power m poly v)

/-- Doubling reaches bit `m` exactly when the double is not an element (R213). -/
theorem timesX_toNat (h : HasExponent poly m) {p : Word} (hp : p.toNat < 2 ^ m) :
    (timesX m poly p).toNat = if 2 * p.toNat < 2 ^ m then 2 * p.toNat else (2 * p.toNat) ^^^ poly.toNat := by
  have hsize := h.size_le
  have hdouble : (p <<< 1).toNat = 2 * p.toNat := by
    rw [BitVec.toNat_shiftLeft, Nat.shiftLeft_eq, Nat.pow_one, Nat.mul_comm]
    exact Nat.mod_eq_of_lt (by omega)
  have htop : (p <<< 1).getLsbD m = decide (2 ^ m ≤ 2 * p.toNat) := by
    rw [← BitVec.testBit_toNat, hdouble]
    by_cases hle : 2 ^ m ≤ 2 * p.toNat
    · rw [decide_eq_true hle]
      exact Nat.testBit_of_two_pow_le_and_two_pow_add_one_gt hle (by rw [Nat.pow_succ]; omega)
    · rw [decide_eq_false hle]
      exact Nat.testBit_eq_false_of_lt (Nat.not_le.mp hle)
  rw [timesX, htop]
  by_cases hlt : 2 * p.toNat < 2 ^ m
  · rw [if_pos hlt, decide_eq_false (Nat.not_le.mpr hlt), if_neg Bool.false_ne_true, hdouble]
  · rw [if_neg hlt, decide_eq_true (Nat.not_lt.mp hlt), if_pos rfl, BitVec.toNat_xor, hdouble]

/-- The sum of two numbers with highest bit `m` is below `2^m`. -/
theorem xor_lt_of_same_top {a b m : Nat} (ha : 2 ^ m ≤ a) (ha' : a < 2 ^ (m + 1)) (hb : 2 ^ m ≤ b)
    (hb' : b < 2 ^ (m + 1)) : a ^^^ b < 2 ^ m := by
  refine Nat.lt_pow_two_of_testBit _ fun i hi => ?_
  rw [Nat.testBit_xor]
  obtain rfl | hlt := hi.eq_or_lt
  · rw [Nat.testBit_of_two_pow_le_and_two_pow_add_one_gt ha ha', Nat.testBit_of_two_pow_le_and_two_pow_add_one_gt hb hb']
    rfl
  · have hpow : 2 ^ (m + 1) ≤ 2 ^ i := Nat.pow_le_pow_right (by decide) hlt
    rw [Nat.testBit_eq_false_of_lt (ha'.trans_le hpow), Nat.testBit_eq_false_of_lt (hb'.trans_le hpow)]
    rfl

/-- Every power is an element of the field (R211). -/
theorem power_lt (h : HasExponent poly m) : ∀ v, (power m poly v).toNat < 2 ^ m
  | 0 => Nat.one_lt_two_pow (by have := h.pos; omega)
  | v + 1 => by
    have ih := power_lt h v
    rw [power, timesX_toNat h ih]
    split
    · assumption
    · next hle => exact xor_lt_of_same_top (Nat.not_lt.mp hle) (by rw [Nat.pow_succ]; omega) h.low h.high

/-- A power as a table entry. -/
def powerSym (m : Nat) (poly : Word) (v : Nat) : Sym := (power m poly v).setWidth 16

theorem powerSym_toNat (h : HasExponent poly m) (v : Nat) : (powerSym m poly v).toNat = (power m poly v).toNat :=
  (BitVec.toNat_setWidth ..).trans (Nat.mod_eq_of_lt ((power_lt h v).trans_le h.size_le))

theorem powerSym_lt (h : HasExponent poly m) (v : Nat) : (powerSym m poly v).toNat < 2 ^ m :=
  (powerSym_toNat h v).trans_lt (power_lt h v)

/-! The walk after some of its turns. -/

/-- The first `n` turns of the walk. -/
def walkTo (m : Nat) (poly : Word) (n : Nat) : Walk := (List.range n).foldl (walkStep m poly) (walkStart m)

theorem walkTo_succ (n : Nat) : walkTo m poly (n + 1) = walkStep m poly (walkTo m poly n) n := by
  rw [walkTo, List.range_succ, List.foldl_append]
  rfl

theorem walkTo_p (n : Nat) : (walkTo m poly n).p = power m poly n := by
  induction n with
  | zero => rfl
  | succ n ih => rw [walkTo_succ, power, ← ih]; rfl

theorem walkTo_alog_succ (n : Nat) :
    (walkTo m poly (n + 1)).alog = (walkTo m poly n).alog.set n (some (powerSym m poly n)) := by
  rw [walkTo_succ, powerSym, ← walkTo_p]
  rfl

theorem walkTo_log_succ (n : Nat) :
    (walkTo m poly (n + 1)).log =
      (walkTo m poly n).log.set (power m poly n).toNat (some (BitVec.ofNat 16 n)) := by
  rw [walkTo_succ, ← walkTo_p]
  rfl

theorem walkTo_lengths (n : Nat) :
    (walkTo m poly n).log.length = 2 ^ m ∧ (walkTo m poly n).alog.length = 2 ^ m := by
  induction n with
  | zero => exact ⟨List.length_replicate, List.length_replicate⟩
  | succ n ih => rwa [walkTo_log_succ, walkTo_alog_succ, List.length_set, List.length_set]

/-- The anti-log table is written at the turns taken and nowhere else. -/
theorem walkTo_alog (n : Nat) {v : Nat} (hv : v < 2 ^ m) :
    (walkTo m poly n).alog[v]? = some (if v < n then some (powerSym m poly v) else none) := by
  induction n with
  | zero =>
    rw [if_neg (Nat.not_lt_zero v)]
    exact List.getElem?_replicate_of_lt hv
  | succ n ih =>
    rw [walkTo_alog_succ]
    by_cases hvn : v = n
    · subst hvn
      rw [List.getElem?_set_self (by rw [(walkTo_lengths v).2]; exact hv), if_pos (Nat.lt_succ_self v)]
    · rw [List.getElem?_set_ne (Ne.symm hvn), ih]
      simp only [show v < n + 1 ↔ v < n by omega]

/-- The log table is unwritten where no power has been. -/
theorem walkTo_log_of_ne {n a : Nat} (ha : a < 2 ^ m) (h : ∀ v, v < n → (power m poly v).toNat ≠ a) :
    (walkTo m poly n).log[a]? = some none := by
  induction n with
  | zero => exact List.getElem?_replicate_of_lt ha
  | succ n ih =>
    rw [walkTo_log_succ, List.getElem?_set_ne (h n (Nat.lt_succ_self n))]
    exact ih fun v hv => h v (by omega)

/-- Where a power has been the log table holds the last turn that met it. -/
theorem walkTo_log_of_lt (h : HasExponent poly m) {n v : Nat} (hv : v < n) :
    ∃ w, v ≤ w ∧ w < n ∧ power m poly w = power m poly v ∧
      (walkTo m poly n).log[(power m poly v).toNat]? = some (some (BitVec.ofNat 16 w)) := by
  induction n with
  | zero => exact absurd hv (Nat.not_lt_zero v)
  | succ n ih =>
    rw [walkTo_log_succ]
    by_cases hpow : power m poly n = power m poly v
    · refine ⟨n, by omega, by omega, hpow, ?_⟩
      rw [hpow, List.getElem?_set_self (by rw [(walkTo_lengths n).1]; exact power_lt h v)]
    · have hne : (power m poly n).toNat ≠ (power m poly v).toNat := fun e => hpow (BitVec.eq_of_toNat_eq e)
      have hvn : v ≠ n := fun e => hpow (e ▸ rfl)
      obtain ⟨w, hvw, hwn, hw, hlog⟩ := ih (by omega)
      exact ⟨w, hvw, by omega, hw, by rw [List.getElem?_set_ne hne, hlog]⟩

/-! The tables of a polynomial. -/

theorem tablesOf_eq (h : HasExponent poly m) :
    tablesOf poly =
      { logmod := 2 ^ m - 1, log := (walkTo m poly (2 ^ m - 1)).log, alog := (walkTo m poly (2 ^ m - 1)).alog } := by
  rw [← h.log2_eq]
  rfl

theorem tablesOf_logmod (h : HasExponent poly m) : (tablesOf poly).logmod = 2 ^ m - 1 := by rw [tablesOf_eq h]

theorem tablesOf_lengths (h : HasExponent poly m) :
    (tablesOf poly).log.length = 2 ^ m ∧ (tablesOf poly).alog.length = 2 ^ m := by
  rw [tablesOf_eq h]
  exact walkTo_lengths _

theorem tablesOf_alog (h : HasExponent poly m) {v : Nat} (hv : v < 2 ^ m - 1) :
    (tablesOf poly).alog[v]? = some (some (powerSym m poly v)) := by
  rw [tablesOf_eq h]
  exact (walkTo_alog _ (by omega)).trans (by rw [if_pos hv])

theorem tablesOf_alog_last (h : HasExponent poly m) : (tablesOf poly).alog[2 ^ m - 1]? = some none := by
  have hsize := h.two_le_size
  rw [tablesOf_eq h]
  exact (walkTo_alog _ (by omega)).trans (by rw [if_neg (Nat.lt_irrefl _)])

/-- An anti-log entry below `logmod` is a power. -/
theorem eq_powerSym_of_alog (h : HasExponent poly m) {v : Nat} (hv : v < 2 ^ m - 1) {p : Sym}
    (hp : (tablesOf poly).alog[v]? = some (some p)) : p = powerSym m poly v := by
  rw [tablesOf_alog h hv] at hp
  exact (Option.some.inj (Option.some.inj hp)).symm

theorem tablesOf_log_of_power (h : HasExponent poly m) {v : Nat} (hv : v < 2 ^ m - 1) :
    ∃ w, v ≤ w ∧ w < 2 ^ m - 1 ∧ powerSym m poly w = powerSym m poly v ∧
      (tablesOf poly).log[(powerSym m poly v).toNat]? = some (some (BitVec.ofNat 16 w)) := by
  obtain ⟨w, hvw, hw, hpow, hlog⟩ := walkTo_log_of_lt h hv
  refine ⟨w, hvw, hw, by rw [powerSym, hpow]; rfl, ?_⟩
  rw [tablesOf_eq h, powerSym_toNat h, hlog]

theorem tablesOf_log_of_ne (h : HasExponent poly m) {a : Sym} (ha : a.toNat < 2 ^ m)
    (hne : ∀ v, v < 2 ^ m - 1 → powerSym m poly v ≠ a) : (tablesOf poly).log[a.toNat]? = some none := by
  rw [tablesOf_eq h]
  refine walkTo_log_of_ne ha fun v hv he => hne v hv (BitVec.eq_of_toNat_eq ?_)
  rw [powerSym_toNat h, he]

/-! Complete tables. -/

/-- With complete tables every non-zero element is a power, because its logarithm is written. -/
theorem exists_powerSym_eq (h : HasExponent poly m) (hcomplete : (tablesOf poly).Complete m) {a : Sym} (ha0 : a ≠ 0)
    (ha : a.toNat < 2 ^ m) : ∃ v, v < 2 ^ m - 1 ∧ powerSym m poly v = a := by
  by_contra hnone
  push Not at hnone
  obtain ⟨-, hlogs, -⟩ := hcomplete
  obtain ⟨l, hl⟩ := hlogs a ha0 ha
  rw [Tables.logOf_eq_none (tablesOf_log_of_ne h ha hnone)] at hl
  exact nomatch hl

/-- There are as many powers below `logmod` as non-zero elements, so each element is one power alone and none is zero. -/
theorem powers_bijective (h : HasExponent poly m) (hcomplete : (tablesOf poly).Complete m) :
    Set.InjOn (fun v => (powerSym m poly v).toNat) (Finset.range (2 ^ m - 1)) ∧
      (Finset.range (2 ^ m - 1)).image (fun v => (powerSym m poly v).toNat) = Finset.Ico 1 (2 ^ m) := by
  have hcover : Finset.Ico 1 (2 ^ m) ⊆ (Finset.range (2 ^ m - 1)).image fun v => (powerSym m poly v).toNat := by
    intro n hn
    obtain ⟨hpos, hlt⟩ := Finset.mem_Ico.mp hn
    have hval : (BitVec.ofNat 16 n).toNat = n := Nat.mod_eq_of_lt (hlt.trans_le h.size_le)
    have hne : BitVec.ofNat 16 n ≠ 0 := fun e => by
      rw [e] at hval
      exact absurd hval (by simp; omega)
    obtain ⟨v, hv, hpow⟩ := exists_powerSym_eq h hcomplete hne (hval.trans_lt hlt)
    exact Finset.mem_image.mpr ⟨v, Finset.mem_range.mpr hv, by rw [hpow, hval]⟩
  have hcard : (Finset.Ico 1 (2 ^ m)).card = (Finset.range (2 ^ m - 1)).card := by
    rw [Nat.card_Ico, Finset.card_range]
  have hle := Finset.card_image_le (s := Finset.range (2 ^ m - 1)) (f := fun v => (powerSym m poly v).toNat)
  have himage := Finset.eq_of_subset_of_card_le hcover (hle.trans_eq hcard.symm)
  exact ⟨Finset.card_image_iff.mp (himage ▸ hcard), himage.symm⟩

theorem powerSym_injective (h : HasExponent poly m) (hcomplete : (tablesOf poly).Complete m) {v w : Nat}
    (hv : v < 2 ^ m - 1) (hw : w < 2 ^ m - 1) (heq : powerSym m poly v = powerSym m poly w) : v = w :=
  (powers_bijective h hcomplete).1 (by simpa using hv) (by simpa using hw) (congrArg BitVec.toNat heq)

theorem powerSym_ne_zero (h : HasExponent poly m) (hcomplete : (tablesOf poly).Complete m) {v : Nat}
    (hv : v < 2 ^ m - 1) : powerSym m poly v ≠ 0 := by
  intro hzero
  have hmem := Finset.mem_image_of_mem (fun v => (powerSym m poly v).toNat) (Finset.mem_range.mpr hv)
  rw [(powers_bijective h hcomplete).2] at hmem
  exact absurd (Finset.mem_Ico.mp hmem).1 (by simp [hzero])

/-- R213: with complete tables the logarithm of a power is its place. -/
theorem tablesOf_log_powerSym (h : HasExponent poly m) (hcomplete : (tablesOf poly).Complete m) {v : Nat}
    (hv : v < 2 ^ m - 1) :
    (tablesOf poly).log[(powerSym m poly v).toNat]? = some (some (BitVec.ofNat 16 v)) := by
  obtain ⟨w, -, hw, hpow, hlog⟩ := tablesOf_log_of_power h hv
  rwa [powerSym_injective h hcomplete hw hv hpow] at hlog

/-- Settles O39: the tables are the walk's after all its turns, and the walk's powers are those of the recursion. -/
theorem tableWalkPowers : Obligations.TableWalkPowers := by
  intro poly m hlow hhigh hpos hfits
  have h : HasExponent poly m := ⟨hlow, hhigh, hpos, hfits⟩
  obtain ⟨hlog, halog⟩ := tablesOf_lengths h
  have hsize := h.two_le_size
  refine ⟨tablesOf_logmod h, hlog, halog, tablesOf_alog h (by omega), tablesOf_alog_last h, fun v hv => ?next,
    fun v p hv hp => ?last, fun a ha hne => ?unwritten, fun hcomplete v p hv hp => ?place⟩
  case next =>
    refine ⟨_, _, tablesOf_alog h (by omega), tablesOf_alog h hv, powerSym_lt h v, powerSym_lt h (v + 1), ?_⟩
    rw [powerSym_toNat h, powerSym_toNat h]
    exact timesX_toNat h (power_lt h v)
  case last =>
    obtain rfl := eq_powerSym_of_alog h hv hp
    obtain ⟨w, hvw, hw, hpow, hlogw⟩ := tablesOf_log_of_power h hv
    have hplace : (BitVec.ofNat 16 w).toNat = w := Nat.mod_eq_of_lt (by have := h.size_le; omega)
    refine ⟨_, hlogw, by rw [hplace]; exact hvw, ?_⟩
    rw [hplace, tablesOf_alog h hw, hpow]
  case unwritten =>
    refine tablesOf_log_of_ne h ha fun v hv he => hne v hv ?_
    rw [tablesOf_alog h hv, he]
  case place =>
    obtain rfl := eq_powerSym_of_alog h hv hp
    exact tablesOf_log_powerSym h hcomplete hv

end Sys2Proof.Machine
end

section
/-! The generator (R214, R215, R217): where logarithms undo powers, a turn of its construction multiplies by the power of
its root, so every turn succeeds and the generator is the product the spec writes. -/

namespace Sys2Proof.Machine

/-- These tables begin with the power 1; each of their powers is an element other than 0, and its logarithm is its
exponent (R213). -/
structure Tables.LogsPowers (t : Tables) : Prop where
  one : t.expOf 0 = some 1
  log : ∀ {e : Nat} {a : Sym}, t.expOf e = some a → a ≠ 0 ∧ t.logOf a = some (e % t.logmod)

/-- Complete tables of a polynomial are such tables. -/
theorem tablesOf_logsPowers {poly : Word} {m : Nat} (h : HasExponent poly m) (hcomplete : (tablesOf poly).Complete m) :
    (tablesOf poly).LogsPowers := by
  have hsize := h.two_le_size
  have hlt (e : Nat) : e % (tablesOf poly).logmod < 2 ^ m - 1 := by
    rw [tablesOf_logmod h]
    exact Nat.mod_lt _ (by omega)
  refine ⟨?one, fun {e a} ha => ?log⟩
  case one => rw [Tables.expOf, Nat.zero_mod, tablesOf_alog h (by omega)]; rfl
  case log =>
    rw [Tables.expOf, tablesOf_alog h (hlt e)] at ha
    obtain rfl : powerSym m poly _ = a := Option.some.inj ha
    refine ⟨powerSym_ne_zero h hcomplete (hlt e), ?_⟩
    rw [Tables.logOf, tablesOf_log_powerSym h hcomplete (hlt e)]
    exact congrArg some (Nat.mod_eq_of_lt ((hlt e).trans_le ((Nat.sub_le _ 1).trans h.size_le)))

variable {t : Tables} {m : Nat}

/-! Multiplication by a power. -/

/-- Exponents count modulo `logmod` (R214). -/
theorem Tables.expOf_mod_add (t : Tables) (e f : Nat) : t.expOf (e % t.logmod + f) = t.expOf (e + f) := by
  rw [Tables.expOf, Tables.expOf, Nat.mod_add_mod]

/-- A power times a power: the exponents add (R214). -/
theorem Tables.LogsPowers.scale_power (hlogs : t.LogsPowers) {e : Nat} {a : Sym} (ha : t.expOf e = some a) (f : Nat) :
    t.scale a f = t.expOf (e + f) := by
  rw [Tables.scale, (hlogs.log ha).2]
  exact t.expOf_mod_add e f

/-- Multiplying by a power adds its exponent to the logarithm (R214, R215). -/
theorem Tables.LogsPowers.gfmul_power (hlogs : t.LogsPowers) {f : Nat} {a : Sym} (ha : t.expOf f = some a) {g : Sym}
    (hg : g ≠ 0) : t.gfmul g a = t.scale g f := by
  obtain ⟨ha0, hlog⟩ := hlogs.log ha
  rw [Tables.gfmul, if_neg (not_or.mpr ⟨hg, ha0⟩), hlog]
  unfold Tables.scale
  cases t.logOf g with
  | none => rfl
  | some l => simp only [Tables.expOf, Nat.add_mod_mod]

/-- An inner coefficient is the product by the root's power, plus its lower neighbour (R215). -/
theorem genInner_eq_map (hlogs : t.LogsPowers) {f : Nat} {a : Sym} (ha : t.expOf f = some a) (g lower : Sym) :
    genInner t f g lower = (t.gfmul g a).map (lower ^^^ ·) := by
  unfold genInner
  split
  · next hg =>
    rw [hg, Tables.gfmul_zero_left]
    exact congrArg some BitVec.xor_zero.symm
  · next hg =>
    rw [hlogs.gfmul_power ha hg]
    cases t.scale g f with
    | none => rfl
    | some v => exact congrArg some (BitVec.xor_comm v lower)

/-! One turn. -/

/-- A turn multiplies by `x` plus the root `a` (R215): a coefficient is the product of the old one by `a`, plus the old one
below it. -/
def TimesRoot (t : Tables) (a : Sym) (g g' : List Sym) : Prop :=
  ∀ k, k ≤ g.length → ∃ v, t.gfmul (g.getD k 0) a = some v ∧
    g'[k]? = some (v ^^^ if k = 0 then 0 else g.getD (k - 1) 0)

/-- The sum of the products, and the coefficients moved up by one place, is the product by the root. -/
theorem timesRoot_zipWith {a : Sym} {g vs : List Sym} (hvs : g.map (fun c => t.gfmul c a) = vs.map some) :
    TimesRoot t a g (List.zipWith (· ^^^ ·) (0 :: g) (vs ++ [0])) := by
  intro k hk
  have hlen : vs.length = g.length := length_of_results hvs
  refine ⟨vs.getD k 0, ?_, ?_⟩
  · have hzero : t.gfmul 0 a = some 0 := t.gfmul_zero_left a
    calc t.gfmul (g.getD k 0) a = (g.map fun c => t.gfmul c a).getD k (t.gfmul 0 a) :=
          (List.getD_map g 0 fun c => t.gfmul c a).symm
      _ = (vs.map some).getD k (some 0) := by rw [hvs, hzero]
      _ = some (vs.getD k 0) := List.getD_map vs 0 some
  · have hbelow : (0 :: g)[k]? = some (if k = 0 then 0 else g.getD (k - 1) 0) := by
      cases k with
      | zero => rfl
      | succ k => simp [List.getD_eq_getElem?_getD, List.getElem?_eq_getElem hk]
    have hproduct : (vs ++ [0])[k]? = some (vs.getD k 0) := by
      obtain hlt | rfl : k < vs.length ∨ k = vs.length := by omega
      · simp [List.getElem?_append_left, hlt]
      · simp
    rw [List.getElem?_zipWith, hbelow, hproduct]
    exact congrArg some (BitVec.xor_comm ..)

/-- On a monic polynomial the products by the root, and the coefficients moved up by one place, are added. -/
theorem genStep_eq (hlogs : t.LogsPowers) {f : Nat} {a g0 : Sym} (ha : t.expOf f = some a) (hg0 : g0 ≠ 0)
    {rest vs : List Sym} (hlead : (g0 :: rest).getLast? = some 1)
    (hvs : (g0 :: rest).map (fun c => t.gfmul c a) = vs.map some) :
    genStep t f (g0 :: rest) = some (List.zipWith (· ^^^ ·) (0 :: g0 :: rest) (vs ++ [0])) := by
  obtain ⟨init, hinit⟩ := List.getLast?_eq_some_iff.mp hlead
  obtain ⟨v, vs, rfl⟩ : ∃ v ws, vs = v :: ws := List.exists_cons_of_ne_nil fun e => by simp [e] at hvs
  obtain ⟨hv, hrest⟩ : t.gfmul g0 a = some v ∧ rest.map (fun c => t.gfmul c a) = vs.map some := List.cons.inj hvs
  have hinitLen : rest.length = init.length := by simpa using congrArg List.length hinit
  have hlen : vs.length = init.length := (length_of_results hrest).trans hinitLen
  have hsum : List.zipWith (· ^^^ ·) (g0 :: rest) vs = List.zipWith (· ^^^ ·) init vs := by
    rw [hinit, ← List.append_nil vs, List.zipWith_append hlen.symm]
    simp
  have hfirst : (0 : Sym) ^^^ v = v := BitVec.zero_xor
  rw [genStep, ← hlogs.gfmul_power ha hg0, hv, collect_zipWith_xor (genInner_eq_map hlogs ha) hrest, hsum, hinit,
    List.cons_append, List.zipWith_cons_cons, List.zipWith_append hlen.symm, hfirst]
  rfl

/-- A power is an element of the field. -/
theorem Tables.Complete.expOf_lt (hcomplete : t.Complete m) {f : Nat} {a : Sym} (ha : t.expOf f = some a) :
    a.toNat < 2 ^ m := by
  obtain ⟨-, -, hpowers⟩ := hcomplete
  obtain ⟨b, hb, hlt⟩ := hpowers f
  rwa [Option.some.inj (ha.symm.trans hb)]

/-- A turn on a monic polynomial of field elements, with a constant term that is not 0, multiplies by the root. -/
theorem exists_genStep (hcomplete : t.Complete m) (hlogs : t.LogsPowers) {f : Nat} {a g0 : Sym}
    (ha : t.expOf f = some a) {g : List Sym} (hconstant : g[0]? = some g0) (hg0 : g0 ≠ 0) (hlead : g.getLast? = some 1)
    (hlt : ∀ c ∈ g, c.toNat < 2 ^ m) :
    ∃ g', genStep t f g = some g' ∧ TimesRoot t a g g' ∧ ∀ c ∈ g', c.toNat < 2 ^ m := by
  obtain ⟨vs, hvs, hvsLt⟩ := exists_results (f := fun c => t.gfmul c a) (cs := g) fun c hc =>
    hcomplete.gfmul (hlt c hc) (hcomplete.expOf_lt ha)
  have hzero : (0 : Sym).toNat < 2 ^ m := Nat.two_pow_pos m
  obtain ⟨rest, rfl⟩ : ∃ rest, g = g0 :: rest := List.head?_eq_some_iff.mp (List.head?_eq_getElem? ▸ hconstant)
  exact ⟨_, genStep_eq hlogs ha hg0 hlead hvs, timesRoot_zipWith hvs,
    zipWith_xor_lt (List.forall_mem_cons.mpr ⟨hzero, hlt⟩)
      (List.forall_mem_append.mpr ⟨hvsLt, List.forall_mem_singleton.mpr hzero⟩)⟩

/-! All turns. -/

/-- What every turn of the construction keeps (R215): coefficients in the field, and a constant term that is the product of
the roots so far. -/
structure GeneratorOk (t : Tables) (m index n : Nat) (g : List Sym) : Prop where
  built : generator t index n = some g
  bound : ∀ c ∈ g, c.toNat < 2 ^ m
  constant : g[0]? = t.expOf (n * index + n * (n - 1) / 2)

theorem generatorOk_zero (hcomplete : t.Complete m) (hlogs : t.LogsPowers) (index : Nat) :
    GeneratorOk t m index 0 [1] where
  built := rfl
  bound := List.forall_mem_singleton.mpr (hcomplete.expOf_lt hlogs.one)
  constant := by simpa using hlogs.one.symm

/-- The next turn succeeds: its root is the power `index + n`, and the constant term takes the root as a factor. -/
theorem GeneratorOk.next (hcomplete : t.Complete m) (hlogs : t.LogsPowers) {index n : Nat} {g : List Sym}
    (h : GeneratorOk t m index n g) :
    ∃ a g', t.expOf (index + n) = some a ∧ TimesRoot t a g g' ∧ GeneratorOk t m index (n + 1) g' := by
  obtain ⟨-, -, hpowers⟩ := id hcomplete
  obtain ⟨a, ha, -⟩ := hpowers (index + n)
  obtain ⟨g0, hpower, -⟩ := hpowers (n * index + n * (n - 1) / 2)
  obtain ⟨hlen, hlead⟩ := generator_monic h.built
  have hconstant : g[0]? = some g0 := h.constant.trans hpower
  have hg0 : g0 ≠ 0 := (hlogs.log hpower).1
  obtain ⟨g', hstep, htimes, hbound⟩ := exists_genStep hcomplete hlogs ha hconstant hg0 hlead h.bound
  refine ⟨a, g', ha, htimes, ?built, hbound, ?constant⟩
  case built =>
    rw [generator, h.built]
    exact hstep
  case constant =>
    obtain ⟨v, hv, hg'⟩ := htimes 0 (Nat.zero_le _)
    have hzero : v ^^^ (0 : Sym) = v := BitVec.xor_zero
    have hexponent : n * index + n * (n - 1) / 2 + (index + n) = (n + 1) * index + (n + 1) * (n + 1 - 1) / 2 := by
      rw [Nat.triangle_succ, Nat.succ_mul]
      omega
    rw [List.getD_eq_getElem?_getD, hconstant, Option.getD_some, hlogs.gfmul_power ha hg0,
      hlogs.scale_power hpower, hexponent] at hv
    rw [hg', if_pos rfl, hzero, hv]

/-- With complete tables every generator is built. -/
theorem exists_generatorOk (hcomplete : t.Complete m) (hlogs : t.LogsPowers) (index : Nat) :
    ∀ n, ∃ g, GeneratorOk t m index n g
  | 0 => ⟨[1], generatorOk_zero hcomplete hlogs index⟩
  | n + 1 => by
    obtain ⟨g, hg⟩ := exists_generatorOk hcomplete hlogs index n
    obtain ⟨-, g', -, -, hg'⟩ := hg.next hcomplete hlogs
    exact ⟨g', hg'⟩

/-! `RS.INIT`. -/

theorem exec_rsInit {s : State} {ra rb : RegNum} {imm16 : BitVec 16} {g : List Sym}
    (hops : rsOperandsOk s.cfg (s.num ra) (s.num rb) = true)
    (hg : generator (tablesOf (s.getX ra)) imm16.toNat (s.num rb) = some g) :
    exec (.rsInit ra rb imm16) s = .next (s.setRs (rsUnitOf (s.getX ra) (s.num rb) imm16.toNat g)).succeed := by
  have hbuild : rsBuild (s.getX ra) (s.num rb) imm16.toNat = some (rsUnitOf (s.getX ra) (s.num rb) imm16.toNat g) := by
    rw [rsBuild_eq_map, hg, Option.map_some]
  refine exec_eq_of_ok rfl ?_
  rw [if_pos hops, hbuild]

/-- `RSLOGMOD` holds `logmod` uncut, so the stored tables are those of the polynomial (R30, R40). -/
theorem rsUnitOf_tables {poly : Word} {m : Nat} (h : HasExponent poly m) (nsym index : Nat) (g : List Sym) :
    (rsUnitOf poly nsym index g).tables = tablesOf poly := by
  have hlogmod : (BitVec.ofNat 16 (tablesOf poly).logmod).toNat = (tablesOf poly).logmod := by
    rw [tablesOf_logmod h]
    exact Nat.mod_eq_of_lt (by have := h.size_le; have := h.two_le_size; omega)
  simp only [RsUnit.tables, rsUnitOf, hlogmod]

/-- Settles O38: every turn of the construction succeeds and multiplies by its root, so the generators of `nsym` and of
`nsym + 1` symbols are one turn apart. -/
theorem initBuildsGenerator : Obligations.InitBuildsGenerator := by
  intro s ra rb imm16 m hp hlow hhigh hpos hm hnsym hnsymMax hcomplete
  have h : HasExponent (s.getX ra) m := ⟨hlow, hhigh, hpos, hm.trans hp.field⟩
  have hlogs := tablesOf_logsPowers h hcomplete
  have hops {r : RegNum} (hlo : 1 ≤ s.num r) (hhi : s.num r ≤ s.cfg.rsNsymMax) :
      rsOperandsOk s.cfg (s.num ra) (s.num r) = true :=
    rsOperandsOk_iff.mpr ⟨h.two_le_size.trans hlow, h.log2_eq.trans_le hm, hlo, hhi⟩
  obtain ⟨g, hg⟩ := exists_generatorOk hcomplete hlogs imm16.toNat (s.num rb)
  obtain ⟨hlen, hlead⟩ := generator_monic hg.built
  have hbuild : rsBuild (s.getX ra) (s.num rb) imm16.toNat = some (rsUnitOf (s.getX ra) (s.num rb) imm16.toNat g) := by
    rw [rsBuild_eq_map, hg.built, Option.map_some]
  obtain ⟨hpoly, hnsymReg, -⟩ := rsBuild_triple hp (hops hnsym hnsymMax) imm16.isLt hbuild
  have htables := rsUnitOf_tables h (s.num rb) imm16.toNat g
  refine ⟨_, exec_rsInit (hops hnsym hnsymMax) hg.built, rfl, rfl, hpoly, ?exponent, ?logmod, hnsymReg, ?rootIndex, rfl, rfl,
    rfl, hlen, ?lead, ?constant, fun hone => ?one, fun rb' t' hnext hmax hexec => ?next⟩
  case exponent =>
    rw [h.log2_eq.symm]
    exact Nat.mod_eq_of_lt (by rw [h.log2_eq]; have := h.fits; omega)
  case logmod => exact (congrArg Tables.logmod htables).trans (tablesOf_logmod h)
  case rootIndex => exact BitVec.eq_of_toNat_eq (Nat.mod_eq_of_lt imm16.isLt)
  case lead => rw [← hlead, List.getLast?_eq_getElem?, hlen, Nat.add_sub_cancel]; rfl
  case constant => exact hg.constant.trans (congrArg (Tables.expOf · _) htables.symm)
  case one =>
    have hone' : s.num rb = 1 := hone
    obtain ⟨a, b, rfl⟩ := List.length_eq_two.mp (hlen.trans (congrArg (· + 1) hone'))
    obtain rfl : b = 1 := by simpa using hlead
    have hpower : some a = (tablesOf (s.getX ra)).expOf imm16.toNat := by simpa [hone'] using hg.constant
    exact ⟨a, (congrArg (Tables.expOf · _) htables).trans hpower.symm, rfl⟩
  case next =>
    obtain ⟨a, g', ha, htimes, hg'⟩ := hg.next hcomplete hlogs
    have hnext' : s.num rb' = s.num rb + 1 := hnext
    rw [exec_rsInit (hops (by omega) hmax) (hnext' ▸ hg'.built)] at hexec
    obtain rfl := Host.Outcome.next.inj hexec
    refine ⟨a, (congrArg (Tables.expOf · _) htables).trans ha, fun k hk => ?_⟩
    obtain ⟨v, hv, hcoef⟩ := htimes k (by rw [hlen]; exact hk.trans_eq hnext)
    exact ⟨v, (congrArg (Tables.gfmul · _ _) htables).trans hv, hcoef⟩

end Sys2Proof.Machine
end

section
/-! Reading the AI records, and AI.HIBC (R272, R274, R275). -/

namespace Sys2Proof.Machine

variable {s : State} {ra rb : RegNum} {src dst : Ix}

/-! The records. -/

theorem exec_aiCnt : exec (.aiCnt ra) s = .next (s.setX ra (s.aicnt.setWidth 32)).succeed := exec_eq_of_ok rfl rfl

theorem exec_aiGetr {r : AiRecord} (h : s.air[s.num rb]? = some r) (f : RecField) :
    exec (.aiGetr ra rb f) s = .next (s.setX ra (r.get f)).succeed := exec_eq_of_ok rfl (by rw [h])

theorem aiGetr_fails_outOfRange (h : s.air.length ≤ s.num rb) (f : RecField) :
    FailsWith (.aiGetr ra rb f) s .outOfRange :=
  failsWith_of_error rfl (by rw [List.getElem?_eq_none h])

/-- The number a record's field holds, as R275 selects it. -/
def AiRecord.number (r : AiRecord) : RecField → Nat
  | .value => r.value.toNat
  | .aiLoc => r.aiLoc.toNat
  | .dataLoc => r.dataLoc.toNat
  | .dataLen => r.dataLen.toNat

/-- Every field of a record is narrower than a register (R41). -/
theorem AiRecord.get_toNat (r : AiRecord) (f : RecField) : (r.get f).toNat = r.number f := by
  cases f <;> exact BitVec.toNat_setWidth_of_le (by decide)

/-- Settles O50: the count and the fields of a record keep their value in a register. -/
theorem aiRecordReads : Obligations.AiRecordReads := by
  refine fun s ra rb => ⟨fun hp hlen => ?count, fun r f hr => ?field, fun f h => aiGetr_fails_outOfRange h f⟩
  case count => exact exists_onlyX_of_exec exec_aiCnt (count_toNat (hlen.trans_lt hp.records))
  case field =>
    obtain ⟨t, hexec, hvalue, honly⟩ := exists_onlyX_of_exec (exec_aiGetr hr f) (r.get_toNat f)
    refine ⟨t, hexec, honly, hvalue.trans ?_⟩
    cases f <;> rfl

/-! HIBC mode. -/

theorem all_inC39_iff {set cs : List Char8} : cs.all (inC39 set) = true ↔ ∀ c ∈ cs, c ∈ set :=
  List.all_eq_true.trans (forall₂_congr fun _ _ => inC39_iff)

theorem exec_aiHibc (hset : ∀ c ∈ s.getC src, c ∈ s.cfg.c39set) (hlen : (s.getC src).length ≤ Config.hibcMax) :
    exec (.aiHibc src dst) s = .next (s.setC dst (withFlag (s.getC src))).succeed :=
  exec_eq_of_ok rfl <| by
    rw [all_inC39_iff.mpr hset, Bool.not_true, if_neg Bool.false_ne_true, if_neg (Nat.not_lt.mpr hlen)]

theorem aiHibc_fails_invalidCharacter (h : ∃ c ∈ s.getC src, c ∉ s.cfg.c39set) :
    FailsWith (.aiHibc src dst) s .invalidCharacter := by
  have hall : ¬(s.getC src).all (inC39 s.cfg.c39set) = true := by
    simpa only [all_inC39_iff, not_forall, exists_prop] using h
  exact failsWith_of_error rfl (if_pos (by rw [eq_false_of_ne_true hall, Bool.not_false]))

theorem aiHibc_fails_lengthExceeded (hset : ∀ c ∈ s.getC src, c ∈ s.cfg.c39set)
    (hlong : Config.hibcMax < (s.getC src).length) : FailsWith (.aiHibc src dst) s .lengthExceeded :=
  failsWith_of_error rfl <| by
    rw [all_inC39_iff.mpr hset, Bool.not_true, if_neg Bool.false_ne_true, if_pos hlong]

theorem withFlag_of_head {msg : List Char8} (h : msg.head? = some hibcFlag) : withFlag msg = msg := if_pos h

theorem withFlag_of_head_ne {msg : List Char8} (h : msg.head? ≠ some hibcFlag) : withFlag msg = hibcFlag :: msg := if_neg h

theorem head?_withFlag (msg : List Char8) : (withFlag msg).head? = some hibcFlag := by
  by_cases h : msg.head? = some hibcFlag
  · rw [withFlag_of_head h, h]
  · rw [withFlag_of_head_ne h, List.head?_cons]

/-- Settles O48: the character test comes before the length test, and the flag is in front whether or not it was. -/
theorem aiHibcFlag : Obligations.HibcFlag := by
  refine fun s src dst => ⟨aiHibc_fails_invalidCharacter, aiHibc_fails_lengthExceeded, fun hset hlen => ?_⟩
  refine ⟨_, exec_aiHibc hset hlen, onlyC_setC dst _, ?_⟩
  rw [State.getC_succeed, State.getC_setC_same]
  exact ⟨head?_withFlag _, withFlag_of_head, withFlag_of_head_ne⟩

end Sys2Proof.Machine
end

section
/-! Tilde escapes (R273): one equation for each branch of the loop, and the scan against the relation `Unescapes`. -/

namespace Sys2Proof.Machine

variable {a b c d : Char8} {rest msg out : List Char8}

/-! Which messages begin with an escape. -/

theorem isControlLetter_iff : isControlLetter a = true ↔ 0x40 ≤ a.toNat ∧ a.toNat ≤ 0x5F := by simp [isControlLetter]

theorem IsByteCode.not_control (h : IsByteCode a b d) : ¬(0x40 ≤ a.toNat ∧ a.toNat ≤ 0x5F) := by
  have := isDigit_iff.mp h.1
  omega

theorem StartsEscape.head (h : StartsEscape (c :: rest)) : c = tilde := by
  obtain ⟨_, _, heq, -⟩ | ⟨_, _, _, _, heq, -⟩ := h <;> exact (List.cons.inj heq).1

/-! The branches. -/

/-- What an escape took is passed over. -/
theorem unescape_skip : ∀ (cs : List Char8) (skip : Nat), unescape cs skip = unescape (cs.drop skip) 0
  | [], _ => by rw [List.drop_nil]; rfl
  | _ :: _, 0 => rfl
  | _ :: cs, skip + 1 => unescape_skip cs skip

theorem unescape_of_escapeOf {v : Char8} {n : Nat} (h : escapeOf rest = some (v, n)) :
    unescape (tilde :: rest) 0 = v :: unescape (rest.drop n) 0 := by
  rw [unescape, if_pos rfl, h, ← unescape_skip]

theorem escapeOf_control (ha : isControlLetter a = true) :
    escapeOf (a :: rest) = some (BitVec.ofNat 8 (a.toNat - 0x40), 1) := by
  have hbounds := isControlLetter_iff.mp ha
  have hcode : a - 0x40 = BitVec.ofNat 8 (a.toNat - 0x40) := by bv_omega
  exact hcode ▸ if_pos hbounds

theorem unescape_control (ha : isControlLetter a = true) :
    unescape (tilde :: a :: rest) 0 = BitVec.ofNat 8 (a.toNat - 0x40) :: unescape rest 0 :=
  unescape_of_escapeOf (escapeOf_control ha)

theorem decimal_three (a b d : Char8) : decimal [a, b, d] = 100 * dval a + 10 * dval b + dval d := by
  simp only [decimal, List.foldl_cons, List.foldl_nil]
  omega

/-- The test of a decimal escape is that of `IsByteCode`. -/
theorem byteCodeTest_iff :
    (isDigit a && isDigit b && isDigit d && decide (decimal [a, b, d] ≤ 255)) = true ↔ IsByteCode a b d := by
  simp only [Bool.and_eq_true, decide_eq_true_eq, decimal_three, and_assoc, IsByteCode]

theorem escapeOf_decimal (h : IsByteCode a b d) :
    escapeOf (a :: b :: d :: rest) = some (BitVec.ofNat 8 (100 * dval a + 10 * dval b + dval d), 3) := by
  rw [← decimal_three]
  exact (if_neg h.not_control).trans (if_pos (byteCodeTest_iff.mpr h))

theorem unescape_decimal (h : IsByteCode a b d) :
    unescape (tilde :: a :: b :: d :: rest) 0 =
      BitVec.ofNat 8 (100 * dval a + 10 * dval b + dval d) :: unescape rest 0 :=
  unescape_of_escapeOf (escapeOf_decimal h)

theorem escapeOf_eq_none (h : ¬StartsEscape (tilde :: rest)) : escapeOf rest = none := by
  cases rest with
  | nil => rfl
  | cons a rest =>
    have hctl : ¬(0x40 ≤ a.toNat ∧ a.toNat ≤ 0x5F) := fun ha =>
      h (.inl ⟨a, rest, rfl, isControlLetter_iff.mpr ha⟩)
    refine (if_neg hctl).trans ?_
    match rest with
    | [] | [_] => rfl
    | b :: d :: rest => exact if_neg fun hcode => h (.inr ⟨a, b, d, rest, rfl, byteCodeTest_iff.mp hcode⟩)

theorem unescape_literal (h : ¬StartsEscape (c :: rest)) : unescape (c :: rest) 0 = c :: unescape rest 0 := by
  by_cases hc : c = tilde
  · subst hc
    rw [unescape, if_pos rfl, escapeOf_eq_none h]
  · rw [unescape, if_neg hc]

/-! The loop as a whole. -/

theorem unescape_eq_of_unescapes (h : Unescapes msg out) : unescape msg 0 = out := by
  induction h with
  | done => rfl
  | control ha _ ih => rw [unescape_control ha, ih]
  | decimal hcode _ ih => rw [unescape_decimal hcode, ih]
  | literal hc _ ih => rw [unescape_literal hc, ih]

theorem unescapes_unescape : ∀ msg : List Char8, Unescapes msg (unescape msg 0)
  | [] => .done
  | c :: rest => by
    by_cases h : StartsEscape (c :: rest)
    · obtain ⟨a, rest', heq, ha⟩ | ⟨a, b, d, rest', heq, hcode⟩ := h
      · obtain ⟨rfl, rfl⟩ := List.cons.inj heq
        rw [unescape_control ha]
        exact .control ha (unescapes_unescape rest')
      · obtain ⟨rfl, rfl⟩ := List.cons.inj heq
        rw [unescape_decimal hcode]
        exact .decimal hcode (unescapes_unescape rest')
    · rw [unescape_literal h]
      exact .literal h (unescapes_unescape rest)
termination_by msg => msg.length

theorem unescapes_iff : Unescapes msg out ↔ unescape msg 0 = out :=
  ⟨unescape_eq_of_unescapes, fun h => h ▸ unescapes_unescape msg⟩

/-! The cases R273 prints. -/

theorem unescapes_self : ∀ {msg : List Char8}, tilde ∉ msg → Unescapes msg msg
  | [], _ => .done
  | _ :: _, h =>
    .literal (fun hesc => h (hesc.head ▸ List.mem_cons_self)) (unescapes_self fun hmem => h (List.mem_cons_of_mem _ hmem))

/-- A decimal digit as a character, and back (R16). -/
theorem digitChar_toNat {n : Nat} (h : n < 10) : (BitVec.ofNat 8 (0x30 + n)).toNat = 0x30 + n :=
  Nat.mod_eq_of_lt (by omega)

theorem isDigit_digitChar {n : Nat} (h : n < 10) : isDigit (BitVec.ofNat 8 (0x30 + n)) = true :=
  isDigit_iff.mpr (by rw [digitChar_toNat h]; omega)

theorem dval_digitChar {n : Nat} (h : n < 10) : dval (BitVec.ofNat 8 (0x30 + n)) = n := by
  rw [dval, digitChar_toNat h, Nat.add_sub_cancel_left]

theorem unescapes_escaped : ∀ cs : List Char8, Unescapes (cs.flatMap escaped) cs
  | [] => .done
  | c :: cs => by
    have hc := c.isLt
    have hhundreds : c.toNat / 100 < 10 := by omega
    have htens : c.toNat / 10 % 10 < 10 := Nat.mod_lt _ (by decide)
    have hones : c.toNat % 10 < 10 := Nat.mod_lt _ (by decide)
    have hvalue : 100 * dval (BitVec.ofNat 8 (0x30 + c.toNat / 100)) +
        10 * dval (BitVec.ofNat 8 (0x30 + c.toNat / 10 % 10)) + dval (BitVec.ofNat 8 (0x30 + c.toNat % 10)) = c.toNat := by
      rw [dval_digitChar hhundreds, dval_digitChar htens, dval_digitChar hones]
      omega
    have hcode := Unescapes.decimal
      ⟨isDigit_digitChar hhundreds, isDigit_digitChar htens, isDigit_digitChar hones, hvalue.trans_le (by omega)⟩
      (unescapes_escaped cs)
    rwa [hvalue, BitVec.ofNat_toNat, BitVec.setWidth_eq] at hcode

theorem getLast?_cons_eq_some_iff : (a :: rest).getLast? = some c ↔ rest = [] ∧ a = c ∨ rest.getLast? = some c := by
  rw [List.getLast?_cons]
  cases h : rest.getLast? with
  | none => simp [List.getLast?_eq_none_iff.mp h]
  | some b =>
    have hne : rest ≠ [] := fun he => by simp [he] at h
    simp [hne]

/-- No escape ends in `~`, so a `~` at the end stays. -/
theorem Unescapes.getLast?_tilde (h : Unescapes msg out) (hlast : msg.getLast? = some tilde) :
    out.getLast? = some tilde := by
  induction h with
  | done => exact hlast
  | @control a rest out ha _ ih =>
    simp only [getLast?_cons_eq_some_iff, List.cons_ne_nil, false_and, false_or] at hlast ⊢
    obtain ⟨-, rfl⟩ | hlast := hlast
    · exact absurd ha (by decide)
    · exact .inr (ih hlast)
  | @decimal a b d rest out hcode _ ih =>
    simp only [getLast?_cons_eq_some_iff, List.cons_ne_nil, false_and, false_or] at hlast ⊢
    obtain ⟨-, rfl⟩ | hlast := hlast
    · obtain ⟨-, -, hd, -⟩ := hcode
      exact absurd hd (by decide)
    · exact .inr (ih hlast)
  | @literal c rest out _ hrest ih =>
    rw [getLast?_cons_eq_some_iff] at hlast ⊢
    obtain ⟨rfl, rfl⟩ | hlast := hlast
    · exact .inl ⟨(unescape_eq_of_unescapes hrest).symm, rfl⟩
    · exact .inr (ih hlast)

/-! The obligation. -/

theorem exec_aiTilde {s : State} {src dst : Ix} :
    exec (.aiTilde src dst) s = .next (s.setC dst (unescape (s.getC src) 0)).succeed := exec_eq_of_ok rfl rfl

/-- Settles O49: the scan is the relation, and every other clause is a derivation in it or one of its branches. -/
theorem tildeUnescapes : Obligations.TildeUnescapes := by
  refine fun s src dst => ⟨_, exec_aiTilde, onlyC_setC dst _, ?_⟩
  rw [State.getC_succeed, State.getC_setC_same]
  refine ⟨unescape_length _ 0, fun h => unescape_eq_of_unescapes (unescapes_self h),
    fun cs h => h ▸ unescape_eq_of_unescapes (unescapes_escaped cs), fun a rest h hlow hhigh => ?control,
    fun _ => unescapes_iff, fun h => ?rejected, fun h => ?short, fun h => ?second,
    fun cs h => (unescapes_unescape _).getLast?_tilde (h ▸ List.getLast?_concat)⟩
  case control =>
    have hcode : a - 0x40 = BitVec.ofNat 8 (a.toNat - 0x40) := by bv_omega
    rw [h, unescape_control (isControlLetter_iff.mpr ⟨hlow, hhigh⟩), List.head?_cons, hcode]
  all_goals
    rw [h]
    decide

end Sys2Proof.Machine
end

section
/-! The length rules of GS1 mode against the tables as printed (R262 to R266), and the no-separator set (R268). -/

namespace Sys2Proof.Machine

theorem LengthRule.names_iff (r : LengthRule) (v : Nat) : r.names v = true ↔ r.lo ≤ v ∧ v ≤ r.hi := by
  simp [LengthRule.names]

/-! The tables of R262 and R263: one rule for each value of each row. -/

section

variable {rule : Nat → Nat → LengthRule} {rows : List (Nat × List Nat)}

theorem forall_mem_rows {P : LengthRule → Prop} :
    (∀ r ∈ rows.flatMap fun (len, values) => values.map (rule len), P r) ↔
      ∀ row ∈ rows, ∀ r ∈ row.2.map (rule row.1), P r := by
  simp only [List.mem_flatMap]
  exact ⟨fun h row hrow r hr => h r ⟨row, hrow, hr⟩, fun h r ⟨row, hrow, hr⟩ => h row hrow r hr⟩

theorem exists_names_rows {v : Nat} (h : ∀ len a, (rule len a).names v = true ↔ v = a) :
    (∃ r ∈ rows.flatMap fun (len, values) => values.map (rule len), r.names v = true) ↔ v ∈ rows.flatMap Prod.snd := by
  simp only [List.mem_flatMap, List.mem_map]
  constructor
  · rintro ⟨_, ⟨row, hrow, a, ha, rfl⟩, hv⟩
    exact ⟨row, hrow, (h row.1 a).mp hv ▸ ha⟩
  · rintro ⟨row, hrow, hv⟩
    exact ⟨_, ⟨row, hrow, v, hv, rfl⟩, (h row.1 v).mpr rfl⟩

theorem names_single_iff (v a lo hi : Nat) : (LengthRule.mk a a lo hi).names v = true ↔ v = a := by
  rw [LengthRule.names_iff]
  exact ⟨fun h => Nat.le_antisymm h.2 h.1, fun h => ⟨h.ge, h.le⟩⟩

end

/-! The rules as one statement. -/

/-- A range of one number. -/
theorem le_and_le_self_iff (a v : Nat) : a ≤ v ∧ v ≤ a ↔ v = a := by omega

theorem lengthRules_admit_iff (v n : Nat) (hn : 1 ≤ n) :
    (∀ r ∈ lengthRules, r.names v = true → r.admits n = true) ↔ PrintedLengths v n := by
  rw [lengthRules, List.forall_mem_append, List.forall_mem_append,
    forall_mem_rows (rule := fun len a => ⟨a, a, len, len⟩), forall_mem_rows (rule := fun len a => ⟨a, a, 1, len⟩),
    and_assoc, PrintedLengths]
  simp only [exact_row_meets, max_row_meets _ _ _ hn]
  refine and_congr ?exact (and_congr ?maximum ?ranged)
  case exact => simp only [exactLengths, List.forall_mem_cons, List.mem_singleton, forall_eq]
  case maximum => simp only [maxLengths, List.forall_mem_cons, List.mem_singleton, forall_eq]
  case ranged =>
    simp only [rangedLengths, List.forall_mem_cons, List.mem_singleton, forall_eq, LengthRule.meets_iff]
    simp only [List.mem_cons, List.not_mem_nil, or_false, and_assoc, or_imp, le_and_le_self_iff, hn, true_and]

theorem lengthRules_name_iff (v : Nat) : (∃ r ∈ lengthRules, r.names v = true) ↔ NamedAi v := by
  simp only [lengthRules, List.mem_append, or_and_right, exists_or]
  rw [exists_names_rows (rule := fun len a => ⟨a, a, len, len⟩) fun _ _ => names_single_iff ..,
    exists_names_rows (rule := fun len a => ⟨a, a, 1, len⟩) fun _ _ => names_single_iff .., NamedAi, or_assoc]
  refine or_congr Iff.rfl (or_congr Iff.rfl ?ranged)
  simp only [rangedLengths, List.exists_mem_cons_iff, List.mem_singleton, exists_eq_left, LengthRule.names_iff]
  simp only [List.mem_cons, List.not_mem_nil, or_false, or_assoc, le_and_le_self_iff]

theorem lengthOk_iff_printed (reject : Bool) (v n : Nat) (hn : 1 ≤ n) :
    lengthOk reject v n = true ↔ PrintedLengths v n ∧ (reject = true → NamedAi v) := by
  rw [lengthOk_iff, lengthRules_admit_iff v n hn, lengthRules_name_iff]

/-! The no-separator set. -/

theorem decimal_two (a b : Char8) : decimal [a, b] = 10 * dval a + dval b := by
  simp [decimal]

/-- The first two digits of a token decide (R268). -/
theorem noSep_cons_cons_iff (a b : Char8) (rest : List Char8) :
    noSep (a :: b :: rest) = true ↔ 10 * dval a + dval b ∈ noSepSet := by
  rw [noSep, List.contains_iff_mem, List.take_succ_cons, List.take_succ_cons, List.take_zero, decimal_two]

theorem mem_noSepSet_iff {v : Nat} :
    v ∈ noSepSet ↔ v ≤ 4 ∨ (11 ≤ v ∧ v ≤ 20) ∨ v = 23 ∨ (31 ≤ v ∧ v ≤ 36) ∨ v = 41 := by
  simp only [noSepSet, List.mem_cons, List.not_mem_nil, or_false]
  omega

end Sys2Proof.Machine
end

section
/-! The structure of a GS1 message (R252 to R255): what the scan of pass 1 accepts, and that pass 2 reads the fields
back. -/

namespace Sys2Proof.Machine

variable {c : Char8} {cs mid ys tok msg : List Char8} {otok : Option (List Char8)} {n m : Nat} {f : AiField}
  {fields : List AiField}

/-! Fields and brackets. -/

/-- A text without brackets: what stands in a token and in a data field (R254). -/
def NoBracket (cs : List Char8) : Prop := openBracket ∉ cs ∧ closeBracket ∉ cs

theorem noBracket_iff : NoBracket cs ↔ ∀ c ∈ cs, c ≠ openBracket ∧ c ≠ closeBracket :=
  ⟨fun h _ hc => ⟨fun he => h.1 (he ▸ hc), fun he => h.2 (he ▸ hc)⟩,
    fun h => ⟨fun hc => (h _ hc).1 rfl, fun hc => (h _ hc).2 rfl⟩⟩

theorem noBracket_cons : NoBracket (c :: cs) ↔ (c ≠ openBracket ∧ c ≠ closeBracket) ∧ NoBracket cs := by
  simp only [noBracket_iff, List.forall_mem_cons]

theorem ne_bracket_of_isDigit (h : isDigit c = true) : c ≠ openBracket ∧ c ≠ closeBracket := by
  constructor <;> rintro rfl <;> exact absurd h (by decide)

theorem tokenOk_iff : tokenOk tok = true ↔ 2 ≤ tok.length ∧ tok.length ≤ 4 ∧ ∀ c ∈ tok, isDigit c = true := by
  simp only [tokenOk, Bool.and_eq_true, decide_eq_true_eq, List.all_eq_true, and_assoc]

theorem inGs1Set_iff : inGs1Set c = true ↔ 32 ≤ c.toNat ∧ c.toNat ≤ 126 := by simp [inGs1Set]

theorem inGs1Set_of_isDigit (h : isDigit c = true) : inGs1Set c = true := by
  have := isDigit_iff.mp h
  exact inGs1Set_iff.mpr (by omega)

/-- What pass 1 asks of a field: an AI token, and no bracket in the data (R253). -/
def AiField.Framed (f : AiField) : Prop := tokenOk f.tok = true ∧ NoBracket f.data

theorem AiField.Framed.isDigit_of_mem_tok (h : f.Framed) (hc : c ∈ f.tok) : isDigit c = true := by
  obtain ⟨-, -, hdigits⟩ := tokenOk_iff.mp h.1
  exact hdigits c hc

theorem AiField.Framed.noBracket_tok (h : f.Framed) : NoBracket f.tok :=
  noBracket_iff.mpr fun _ hc => ne_bracket_of_isDigit (h.isDigit_of_mem_tok hc)

/-- A shaped field is a framed one in the character set of R251. -/
theorem AiField.shaped_iff : f.Shaped ↔ f.Framed ∧ ∀ c ∈ f.data, inGs1Set c = true := by
  constructor
  · rintro ⟨hlow, hhigh, hdigits, hdata⟩
    refine ⟨⟨tokenOk_iff.mpr ⟨hlow, hhigh, hdigits⟩, noBracket_iff.mpr fun c hc => ?_⟩, fun c hc => ?_⟩ <;>
      obtain ⟨h32, h126, hopen, hclose⟩ := hdata c hc
    · exact ⟨hopen, hclose⟩
    · exact inGs1Set_iff.mpr ⟨h32, h126⟩
  · rintro ⟨⟨htok, hopen, hclose⟩, hdata⟩
    obtain ⟨hlow, hhigh, hdigits⟩ := tokenOk_iff.mp htok
    refine ⟨hlow, hhigh, hdigits, fun c hc => ?_⟩
    obtain ⟨h32, h126⟩ := inGs1Set_iff.mp (hdata c hc)
    exact ⟨h32, h126, fun he => hopen (he ▸ hc), fun he => hclose (he ▸ hc)⟩

/-! The message of a list of fields. -/

@[simp] theorem bracketed_nil : bracketed [] = [] := rfl

theorem bracketed_cons (f : AiField) (fields : List AiField) :
    bracketed (f :: fields) = openBracket :: (f.tok ++ closeBracket :: (f.data ++ bracketed fields)) := by
  simp only [bracketed, List.flatMap_cons, List.cons_append, List.append_assoc]

theorem head?_bracketed (h : fields ≠ []) : (bracketed fields).head? = some openBracket := by
  obtain ⟨f, fields, rfl⟩ := List.exists_cons_of_ne_nil h
  rw [bracketed_cons, List.head?_cons]

theorem data_subset_bracketed (hf : f ∈ fields) (hc : c ∈ f.data) : c ∈ bracketed fields :=
  List.mem_flatMap.mpr ⟨f, hf, List.mem_append_right _ (List.mem_cons_of_mem _ hc)⟩

theorem inGs1Set_of_mem_bracketed (h : ∀ f ∈ fields, f.Shaped) (hc : c ∈ bracketed fields) : inGs1Set c = true := by
  obtain ⟨f, hf, hc⟩ := List.mem_flatMap.mp hc
  obtain ⟨-, -, hdigits, hdata⟩ := h f hf
  simp only [List.mem_append, List.mem_cons] at hc
  obtain (rfl | htok) | rfl | hd := hc
  · decide
  · exact inGs1Set_of_isDigit (hdigits c htok)
  · decide
  · exact (AiField.shaped_iff.mp (h f hf)).2 c hd

/-! Pass 1, one character. -/

theorem scanStructure_nil_ok : scanStructure [] otok n = .ok m ↔ otok = none ∧ n = m := by
  cases otok <;> simp [scanStructure]

theorem scanStructure_open_ok :
    scanStructure (openBracket :: cs) otok n = .ok m ↔ otok = none ∧ scanStructure cs (some []) n = .ok m := by
  cases otok <;> simp [scanStructure]

theorem scanStructure_close_ok : scanStructure (closeBracket :: cs) otok n = .ok m ↔
    ∃ t, otok = some t ∧ tokenOk t = true ∧ scanStructure cs none (n + 1) = .ok m := by
  have hne : closeBracket ≠ openBracket := by decide
  cases otok with
  | none => simp [scanStructure, hne]
  | some t => cases ht : tokenOk t <;> simp [scanStructure, hne, ht]

theorem scanStructure_other (hopen : c ≠ openBracket) (hclose : c ≠ closeBracket) :
    scanStructure (c :: cs) otok n = scanStructure cs (otok.map (· ++ [c])) n := by
  cases otok <;> simp [scanStructure, hopen, hclose]

/-- The only kind pass 1 raises by itself (R271). -/
theorem scanStructure_error : ∀ {cs : List Char8} {otok : Option (List Char8)} {n : Nat} {k : ErrorKind},
    scanStructure cs otok n = .error k → k = .invalidFormat
  | [], none, _, _, h => by simp [scanStructure] at h
  | [], some _, _, _, h => (Except.error.inj h).symm
  | c :: cs, otok, n, k, h => by
    unfold scanStructure at h
    split at h
    · cases otok with
      | none => exact scanStructure_error h
      | some t => exact (Except.error.inj h).symm
    · split at h
      · cases otok with
        | none => exact (Except.error.inj h).symm
        | some t =>
          simp only at h
          split at h
          · exact scanStructure_error h
          · exact (Except.error.inj h).symm
      · exact scanStructure_error h

/-! Pass 1, a run of characters. -/

/-- Inside a token the scan gets to the next `]` only without meeting a `[`. -/
theorem scanStructure_token_ok (hclose : closeBracket ∉ mid) : ∀ {t : List Char8},
    scanStructure (mid ++ ys) (some t) n = .ok m ↔ openBracket ∉ mid ∧ scanStructure ys (some (t ++ mid)) n = .ok m := by
  induction mid with
  | nil => simp
  | cons c mid ih =>
    intro t
    obtain ⟨hc, hmid⟩ := not_or.mp (mt List.mem_cons.mpr hclose)
    by_cases hopen : c = openBracket
    · simp [hopen, scanStructure_open_ok]
    · rw [List.cons_append, scanStructure_other hopen (Ne.symm hc), Option.map_some, ih hmid, List.mem_cons, not_or,
        List.append_assoc, List.singleton_append]
      exact ⟨fun h => ⟨⟨Ne.symm hopen, h.1⟩, h.2⟩, fun h => ⟨h.1.2, h.2⟩⟩

/-- Outside a token the scan gets to the next `[` only without meeting a `]`. -/
theorem scanStructure_data_ok (hopen : openBracket ∉ mid) :
    scanStructure (mid ++ ys) none n = .ok m ↔ closeBracket ∉ mid ∧ scanStructure ys none n = .ok m := by
  induction mid with
  | nil => simp
  | cons c mid ih =>
    obtain ⟨hc, hmid⟩ := not_or.mp (mt List.mem_cons.mpr hopen)
    by_cases hclose : c = closeBracket
    · simp [hclose, scanStructure_close_ok]
    · rw [List.cons_append, scanStructure_other (Ne.symm hc) hclose, Option.map_none, ih hmid, List.mem_cons, not_or]
      exact ⟨fun h => ⟨⟨Ne.symm hclose, h.1⟩, h.2⟩, fun h => ⟨h.1.2, h.2⟩⟩

/-- A scan that accepts a message accepts the rest of it from wherever it has come to. -/
theorem scanStructure_suffix : ∀ (pre : List Char8) {otok : Option (List Char8)} {n : Nat},
    scanStructure (pre ++ ys) otok n = .ok m → ∃ otok' n', scanStructure ys otok' n' = .ok m
  | [], _, _, h => ⟨_, _, h⟩
  | c :: pre, otok, n, h => by
    rw [List.cons_append] at h
    by_cases hopen : c = openBracket
    · subst hopen
      exact scanStructure_suffix pre (scanStructure_open_ok.mp h).2
    · by_cases hclose : c = closeBracket
      · subst hclose
        obtain ⟨t, -, -, h⟩ := scanStructure_close_ok.mp h
        exact scanStructure_suffix pre h
      · rw [scanStructure_other hopen hclose] at h
        exact scanStructure_suffix pre h

/-! Pass 1, what it rejects. -/

theorem scanStructure_nested (pre post : List Char8) (hmid : closeBracket ∉ mid) :
    scanStructure (pre ++ openBracket :: mid ++ openBracket :: post) otok n ≠ .ok m := by
  rw [List.append_assoc, List.cons_append]
  intro h
  obtain ⟨otok', n', h⟩ := scanStructure_suffix pre h
  rw [scanStructure_open_ok, scanStructure_token_ok hmid, scanStructure_open_ok] at h
  obtain ⟨-, -, hdepth, -⟩ := h
  exact Option.some_ne_none _ hdepth

theorem scanStructure_stray_close (pre post : List Char8) (hmid : openBracket ∉ mid) :
    scanStructure (pre ++ closeBracket :: mid ++ closeBracket :: post) otok n ≠ .ok m := by
  rw [List.append_assoc, List.cons_append]
  intro h
  obtain ⟨otok', n', h⟩ := scanStructure_suffix pre h
  obtain ⟨-, -, -, h⟩ := scanStructure_close_ok.mp h
  obtain ⟨t, ht, -⟩ := scanStructure_close_ok.mp ((scanStructure_data_ok hmid).mp h).2
  exact Option.some_ne_none t ht.symm

theorem scanStructure_unclosed (pre : List Char8) (htok : closeBracket ∉ tok) :
    scanStructure (pre ++ openBracket :: tok) otok n ≠ .ok m := by
  intro h
  obtain ⟨otok', n', h⟩ := scanStructure_suffix pre h
  rw [← List.append_nil tok, scanStructure_open_ok, scanStructure_token_ok htok, scanStructure_nil_ok] at h
  obtain ⟨-, -, hdepth, -⟩ := h
  exact Option.some_ne_none _ hdepth

theorem scanStructure_bad_token (pre post : List Char8) (htok : closeBracket ∉ tok) (hbad : ¬tokenOk tok = true) :
    scanStructure (pre ++ openBracket :: tok ++ closeBracket :: post) otok n ≠ .ok m := by
  rw [List.append_assoc, List.cons_append]
  intro h
  obtain ⟨otok', n', h⟩ := scanStructure_suffix pre h
  rw [scanStructure_open_ok, scanStructure_token_ok htok, scanStructure_close_ok, List.nil_append] at h
  obtain ⟨-, -, _, ⟨⟩, hok, -⟩ := h
  exact hbad hok

/-! Pass 1, the whole message. -/

/-- One field: a `[`, a token, a `]` and data, before the next `[` or the end. -/
theorem scanStructure_field_ok (htok : closeBracket ∉ f.tok) (hdata : openBracket ∉ f.data) :
    scanStructure (openBracket :: (f.tok ++ closeBracket :: (f.data ++ ys))) none n = .ok m ↔
      f.Framed ∧ scanStructure ys none (n + 1) = .ok m := by
  rw [scanStructure_open_ok, scanStructure_token_ok htok, scanStructure_close_ok, List.nil_append]
  constructor
  · rintro ⟨-, -, _, ⟨⟩, hok, h⟩
    obtain ⟨hclose, h⟩ := (scanStructure_data_ok hdata).mp h
    exact ⟨⟨hok, hdata, hclose⟩, h⟩
  · rintro ⟨hf, h⟩
    exact ⟨rfl, hf.noBracket_tok.1, _, rfl, hf.1, (scanStructure_data_ok hdata).mpr ⟨hf.2.2, h⟩⟩

/-- Pass 1 accepts the message of framed fields and counts them. -/
theorem scanStructure_bracketed : ∀ {fields : List AiField} {n : Nat}, (∀ f ∈ fields, f.Framed) →
    scanStructure (bracketed fields) none n = .ok (n + fields.length)
  | [], _, _ => rfl
  | f :: fields, n, h => by
    obtain ⟨hf, hfields⟩ := List.forall_mem_cons.mp h
    rw [bracketed_cons, List.length_cons, Nat.add_comm fields.length, ← Nat.add_assoc]
    exact (scanStructure_field_ok hf.noBracket_tok.2 hf.2.1).mpr ⟨hf, scanStructure_bracketed hfields⟩

/-- What pass 1 accepts, when it opens with `[`, is the message of framed fields. -/
theorem exists_bracketed_of_scanStructure (cs : List Char8) {n : Nat}
    (h : scanStructure (openBracket :: cs) none n = .ok m) :
    ∃ fields, fields ≠ [] ∧ (∀ f ∈ fields, f.Framed) ∧ openBracket :: cs = bracketed fields := by
  have hmem : closeBracket ∈ cs := by
    by_contra hclose
    exact scanStructure_unclosed [] hclose h
  obtain ⟨tok, rest, hcs, htok⟩ := List.eq_append_cons_of_mem hmem
  by_cases hopen : openBracket ∈ rest
  · obtain ⟨data, rest', hrest, hdata⟩ := List.eq_append_cons_of_mem hopen
    have hshorter : rest'.length < cs.length := by
      simp only [hcs, hrest, List.length_append, List.length_cons]
      omega
    rw [hcs, hrest, scanStructure_field_ok (f := ⟨tok, data⟩) htok hdata] at h
    obtain ⟨hf, h⟩ := h
    obtain ⟨fields, -, hfields, heq⟩ := exists_bracketed_of_scanStructure rest' h
    exact ⟨⟨tok, data⟩ :: fields, List.cons_ne_nil _ _, List.forall_mem_cons.mpr ⟨hf, hfields⟩, by
      rw [bracketed_cons, ← heq, hcs, hrest]⟩
  · rw [hcs, ← List.append_nil rest, scanStructure_field_ok (f := ⟨tok, rest⟩) htok hopen] at h
    exact ⟨[⟨tok, rest⟩], List.cons_ne_nil _ _, List.forall_mem_singleton.mpr h.1, by
      rw [bracketed_cons, bracketed_nil, List.append_nil, hcs]⟩
termination_by cs.length

/-! Pass 2. -/

theorem extractFields_open (inTok : Bool) (cur : Option AiField) : extractFields (openBracket :: cs) inTok cur =
    cur.toList ++ extractFields cs true (some { tok := [], data := [] }) := by
  rw [extractFields, if_pos rfl]

theorem extractFields_close (inTok : Bool) (cur : Option AiField) :
    extractFields (closeBracket :: cs) inTok cur = extractFields cs false cur := by
  rw [extractFields, if_neg (by decide), if_pos rfl]

theorem extractFields_token (h : NoBracket mid) : ∀ t : List Char8,
    extractFields (mid ++ ys) true (some { tok := t, data := [] }) =
      extractFields ys true (some { tok := t ++ mid, data := [] }) := by
  induction mid with
  | nil => simp
  | cons c mid ih =>
    intro t
    obtain ⟨⟨hopen, hclose⟩, hmid⟩ := noBracket_cons.mp h
    rw [List.cons_append, extractFields, if_neg hopen, if_neg hclose, if_pos rfl, Option.map_some,
      ih hmid, List.append_assoc, List.singleton_append]

theorem extractFields_data (h : NoBracket mid) : ∀ d : List Char8,
    extractFields (mid ++ ys) false (some { tok := tok, data := d }) =
      extractFields ys false (some { tok := tok, data := d ++ mid }) := by
  induction mid with
  | nil => simp
  | cons c mid ih =>
    intro d
    obtain ⟨⟨hopen, hclose⟩, hmid⟩ := noBracket_cons.mp h
    rw [List.cons_append, extractFields, if_neg hopen, if_neg hclose, if_neg Bool.false_ne_true,
      Option.map_some, ih hmid, List.append_assoc, List.singleton_append]

theorem extractFields_bracketed : ∀ {fields : List AiField} {cur : Option AiField}, (∀ f ∈ fields, f.Framed) →
    extractFields (bracketed fields) false cur = cur.toList ++ fields
  | [], _, _ => (List.append_nil _).symm
  | f :: fields, cur, h => by
    obtain ⟨hf, hfields⟩ := List.forall_mem_cons.mp h
    rw [bracketed_cons, extractFields_open, extractFields_token hf.noBracket_tok, extractFields_close,
      extractFields_data hf.2, extractFields_bracketed hfields]
    rfl

/-- Pass 2 reads the fields of a message back. -/
theorem fieldsOf_bracketed (h : ∀ f ∈ fields, f.Framed) : fieldsOf (bracketed fields) = fields :=
  extractFields_bracketed h

end Sys2Proof.Machine
end

section
/-! The rewrite of pass 4 (R267 to R269): the output, and where its records point. -/

namespace Sys2Proof.Machine

variable {f : AiField} {fields : List AiField} {p : Params}

/-! The normalized message. -/

/-- The marker that a rewrite owes before its next field (R267). -/
def Rewrite.marker (t : Rewrite) : List Char8 := if t.due then [Config.sep] else []

/-- The record of a field whose token stands after `pre` (R269). -/
def AiField.record (f : AiField) (pre : List Char8) : AiRecord :=
  { value := BitVec.ofNat 14 (decimal f.tok)
    aiLoc := BitVec.ofNat 16 pre.length
    dataLoc := BitVec.ofNat 16 (pre.length + f.tok.length)
    dataLen := BitVec.ofNat 16 f.data.length }

theorem rewriteField_eq (t : Rewrite) (f : AiField) : rewriteField t f =
    { out := t.out ++ t.marker ++ f.tok ++ f.data
      recs := t.recs ++ [f.record (t.out ++ t.marker)]
      due := !noSep f.tok } := by
  cases h : t.due <;> simp [rewriteField, Rewrite.marker, AiField.record, h]

theorem flattened_cons_cons (f g : AiField) (fields : List AiField) :
    flattened (f :: g :: fields) =
      f.tok ++ f.data ++ (if noSep f.tok then [] else [Config.sep]) ++ flattened (g :: fields) := rfl

/-- What the rewrite of a list of fields appends: a marker if one is due, then the normalized message. -/
theorem foldl_rewriteField_out : ∀ (fields : List AiField) (f : AiField) (t : Rewrite),
    ((f :: fields).foldl rewriteField t).out = t.out ++ t.marker ++ flattened (f :: fields)
  | [], f, t => by
    rw [List.foldl_cons, List.foldl_nil, rewriteField_eq, flattened, List.append_assoc _ f.tok]
  | g :: fields, f, t => by
    have hmarker : (rewriteField t f).marker = if noSep f.tok then [] else [Config.sep] := by
      cases h : noSep f.tok <;> simp [Rewrite.marker, rewriteField_eq, h]
    rw [List.foldl_cons, foldl_rewriteField_out fields g, hmarker, flattened_cons_cons, rewriteField_eq]
    simp only [List.append_assoc]

theorem rewriteAll_out (fields : List AiField) : (rewriteAll fields).out = flattened fields := by
  cases fields with
  | nil => rfl
  | cons f fields => exact foldl_rewriteField_out fields f _

theorem rewriteAll_recs_length (fields : List AiField) : (rewriteAll fields).recs.length = fields.length :=
  (foldl_rewriteField_lengths fields _).2.trans (Nat.zero_add _)

/-! The records. -/

/-- A field and its record as they stand in the output: the record is that of the place where the token stands. -/
def PlacedIn (out : List Char8) (f : AiField) (r : AiRecord) : Prop :=
  ∃ pre post, out = pre ++ f.tok ++ f.data ++ post ∧ r = f.record pre

theorem foldl_rewriteField_extends (fields : List AiField) (t : Rewrite) :
    ∃ post, (fields.foldl rewriteField t).out = t.out ++ post := by
  cases fields with
  | nil => exact ⟨[], (List.append_nil _).symm⟩
  | cons f fields => exact ⟨_, (foldl_rewriteField_out fields f t).trans (List.append_assoc ..)⟩

theorem foldl_rewriteField_recs : ∀ (fields : List AiField) (t : Rewrite), ∃ recs,
    (fields.foldl rewriteField t).recs = t.recs ++ recs ∧
      List.Forall₂ (PlacedIn (fields.foldl rewriteField t).out) fields recs
  | [], t => ⟨[], (List.append_nil _).symm, .nil⟩
  | f :: fields, t => by
    obtain ⟨recs, hrecs, hplaced⟩ := foldl_rewriteField_recs fields (rewriteField t f)
    obtain ⟨post, hpost⟩ := foldl_rewriteField_extends fields (rewriteField t f)
    refine ⟨f.record (t.out ++ t.marker) :: recs, ?_, .cons ⟨t.out ++ t.marker, post, ?_, rfl⟩ hplaced⟩
    · rw [List.foldl_cons, hrecs, rewriteField_eq, List.append_assoc, List.singleton_append]
    · rw [List.foldl_cons, hpost, rewriteField_eq]

theorem rewriteAll_placed {n : Nat} {r : AiRecord} (hf : fields[n]? = some f)
    (hr : (rewriteAll fields).recs[n]? = some r) : PlacedIn (flattened fields) f r := by
  obtain ⟨recs, hrecs, hplaced⟩ := foldl_rewriteField_recs fields { out := [], recs := [], due := false }
  rw [← rewriteAll_out]
  refine (List.forall₂_iff_zip.mp hplaced).2 (List.mem_of_getElem? (i := n) ?_)
  exact List.getElem?_zip_eq_some.mpr ⟨hf, (congrArg (·[n]?) hrecs).symm.trans hr⟩

theorem decimal_eq_ofDigits (cs : List Char8) : decimal cs = Nat.ofDigits 10 (cs.reverse.map dval) := by
  rw [Nat.ofDigits_eq_foldr, List.foldr_map, List.foldr_reverse]
  simp only [decimal, Nat.cast_id, Nat.add_comm]

theorem decimal_lt {cs : List Char8} (h : ∀ c ∈ cs, isDigit c = true) : decimal cs < 10 ^ cs.length := by
  have hdigits : ∀ d ∈ cs.reverse.map dval, d < 10 := by
    simp only [List.mem_map, List.mem_reverse]
    rintro _ ⟨c, hc, rfl⟩
    have := isDigit_iff.mp (h c hc)
    rw [dval]
    omega
  simpa only [decimal_eq_ofDigits, List.length_map, List.length_reverse] using
    Nat.ofDigits_lt_base_pow_length (by decide) hdigits

/-- A placed record reads back as the rules say, when the output fits the record's fields (R41, R269). -/
theorem PlacedIn.reads {out : List Char8} {r : AiRecord} (h : PlacedIn out f r) (hf : f.Shaped)
    (hlen : out.length < 2 ^ 16) :
    r.value.toNat = decimal f.tok ∧ r.dataLoc.toNat = r.aiLoc.toNat + f.tok.length ∧ r.dataLen.toNat = f.data.length ∧
      (out.drop r.aiLoc.toNat).take f.tok.length = f.tok ∧ (out.drop r.dataLoc.toNat).take r.dataLen.toNat = f.data := by
  obtain ⟨pre, post, rfl, rfl⟩ := h
  obtain ⟨-, hshort, hdigits, -⟩ := hf
  simp only [List.length_append] at hlen
  have hvalue : decimal f.tok < 2 ^ 14 := calc
    decimal f.tok < 10 ^ f.tok.length := decimal_lt hdigits
    _ ≤ 10 ^ 4 := Nat.pow_le_pow_right (by decide) hshort
    _ < 2 ^ 14 := by decide
  have haiLoc : (f.record pre).aiLoc.toNat = pre.length := Nat.mod_eq_of_lt (by omega)
  have hdataLoc : (f.record pre).dataLoc.toNat = pre.length + f.tok.length := Nat.mod_eq_of_lt (by omega)
  have hdataLen : (f.record pre).dataLen.toNat = f.data.length := Nat.mod_eq_of_lt (by omega)
  refine ⟨Nat.mod_eq_of_lt hvalue, by rw [hdataLoc, haiLoc], hdataLen, ?_, ?_⟩
  · rw [haiLoc]; simp
  · rw [hdataLoc, hdataLen]; simp

/-! The properties of R276. -/

theorem mem_flattened {c : Char8} : ∀ {fields : List AiField}, c ∈ flattened fields →
    c = Config.sep ∨ ∃ f ∈ fields, c ∈ f.tok ∨ c ∈ f.data
  | [], h => absurd h List.not_mem_nil
  | [f], h => .inr ⟨f, List.mem_singleton_self f, List.mem_append.mp h⟩
  | f :: g :: fields, h => by
    rw [flattened_cons_cons] at h
    simp only [List.mem_append] at h
    obtain ((h | h) | h) | h := h
    · exact .inr ⟨f, List.mem_cons_self, .inl h⟩
    · exact .inr ⟨f, List.mem_cons_self, .inr h⟩
    · split at h
      · exact absurd h List.not_mem_nil
      · exact .inl (List.mem_singleton.mp h)
    · exact (mem_flattened h).imp_right fun ⟨f', hf', hc⟩ => ⟨f', List.mem_cons_of_mem _ hf', hc⟩

theorem noBracket_flattened (h : ∀ f ∈ fields, f.Framed) : NoBracket (flattened fields) := by
  refine noBracket_iff.mpr fun c hc => ?_
  obtain rfl | ⟨f, hf, htok | hdata⟩ := mem_flattened hc
  · decide
  · exact noBracket_iff.mp (h f hf).noBracket_tok c htok
  · exact noBracket_iff.mp (h f hf).2 c hdata

/-- The message begins with the first digit of its first token. -/
theorem head?_flattened_ne_sep (h : ∀ f ∈ fields, f.Framed) : (flattened fields).head? ≠ some Config.sep := by
  cases fields with
  | nil => exact (Option.some_ne_none _).symm
  | cons f fields =>
    have hf := h f List.mem_cons_self
    obtain ⟨c, tok, htok⟩ := List.exists_cons_of_length_pos (Nat.lt_of_lt_of_le Nat.two_pos (tokenOk_iff.mp hf.1).1)
    have hdigit : isDigit c = true := hf.isDigit_of_mem_tok (htok ▸ List.mem_cons_self)
    have hhead : (flattened (f :: fields)).head? = some c := by
      cases fields <;> simp only [flattened, htok, List.cons_append, List.head?_cons]
    rw [hhead]
    rintro ⟨⟩
    exact absurd hdigit (by decide)

theorem flattened_length : ∀ {fields : List AiField}, fields ≠ [] →
    (flattened fields).length + fields.length + 1 ≤ (bracketed fields).length
  | [f], _ => by
    simp only [flattened, bracketed_cons, bracketed_nil, List.length_append, List.length_cons, List.length_nil]
    omega
  | f :: g :: fields, _ => by
    have ih := flattened_length (List.cons_ne_nil g fields)
    rw [flattened_cons_cons, bracketed_cons]
    simp only [List.length_append, List.length_cons] at ih ⊢
    split <;> simp <;> omega

end Sys2Proof.Machine
end

section
/-! `AI.GS1` as a whole (R270, R271): what it accepts, and the kind of each failure. -/

namespace Sys2Proof.Machine

variable {s t : State} {src dst : Ix} {p : Params} {msg : List Char8} {fields : List AiField} {r : Rewrite}

/-! The tests in their order. -/

theorem parseGs1_of_character (h : ∃ c ∈ msg, inGs1Set c = false) : parseGs1 p msg = .error .invalidCharacter :=
  if_pos (by rw [eq_false_of_ne_true (not_all_of_exists h), Bool.not_false])

theorem characterTest_passes (h : ∀ c ∈ msg, inGs1Set c = true) : ¬(!msg.all inGs1Set) = true := by
  rw [List.all_eq_true.mpr h, Bool.not_true]
  exact Bool.false_ne_true

theorem parseGs1_of_head (h : ∀ c ∈ msg, inGs1Set c = true) (hhead : msg.head? ≠ some openBracket) :
    parseGs1 p msg = .error .invalidFormat := (if_neg (characterTest_passes h)).trans (if_pos hhead)

theorem parseGs1_of_scanStructure (h : ∀ c ∈ msg, inGs1Set c = true)
    (hscan : ∀ m, scanStructure msg none 0 ≠ .ok m) : parseGs1 p msg = .error .invalidFormat := by
  rw [parseGs1, if_neg (characterTest_passes h)]
  cases hresult : scanStructure msg none 0 with
  | ok m => exact absurd hresult (hscan m)
  | error k =>
    obtain rfl := scanStructure_error hresult
    exact ite_self _

/-- On the message of shaped fields only the count and the data fields are left to test. -/
theorem parseGs1_bracketed (h : ∀ f ∈ fields, f.Shaped) (hne : fields ≠ []) :
    parseGs1 p (bracketed fields) = if p.aiMax < fields.length then .error .lengthExceeded
      else if fields.any fun f => f.data.isEmpty then .error .invalidFormat
      else if fields.all fun f => lengthOk p.aiUnknownReject (decimal f.tok) f.data.length then .ok (rewriteAll fields)
      else .error .invalidFormat := by
  have hframed : ∀ f ∈ fields, f.Framed := fun f hf => (AiField.shaped_iff.mp (h f hf)).1
  rw [parseGs1, if_neg (characterTest_passes fun c => inGs1Set_of_mem_bracketed h),
    if_neg (not_not.mpr (head?_bracketed hne)), scanStructure_bracketed hframed, fieldsOf_bracketed hframed, Nat.zero_add]

/-- The last two tests together ask that every field is sized (R255, R256). -/
theorem forall_sized_iff : (∀ f ∈ fields, f.Sized p) ↔ ¬(fields.any fun f => f.data.isEmpty) = true ∧
    (fields.all fun f => lengthOk p.aiUnknownReject (decimal f.tok) f.data.length) = true := by
  simp only [AiField.Sized, List.any_eq_true, List.all_eq_true, List.isEmpty_iff, not_exists, not_and, ne_eq, forall_and]

theorem parseGs1_bracketed_ok_iff (h : ∀ f ∈ fields, f.Shaped) (hne : fields ≠ []) :
    parseGs1 p (bracketed fields) = .ok r ↔
      fields.length ≤ p.aiMax ∧ (∀ f ∈ fields, f.Sized p) ∧ r = rewriteAll fields := by
  rw [parseGs1_bracketed h hne, forall_sized_iff, ← Nat.not_lt]
  split_ifs with hlong hempty hall
  · exact ⟨nofun, fun ⟨hshort, _⟩ => absurd hlong hshort⟩
  · exact ⟨nofun, fun ⟨_, ⟨hfull, _⟩, _⟩ => absurd hempty hfull⟩
  · exact ⟨fun h => ⟨hlong, ⟨hempty, hall⟩, (Except.ok.inj h).symm⟩, fun ⟨_, _, hr⟩ => congrArg Except.ok hr.symm⟩
  · exact ⟨nofun, fun ⟨_, ⟨_, hsized⟩, _⟩ => absurd hsized hall⟩

theorem parseGs1_bracketed_of_long (h : ∀ f ∈ fields, f.Shaped) (hlong : p.aiMax < fields.length) :
    parseGs1 p (bracketed fields) = .error .lengthExceeded :=
  (parseGs1_bracketed h (List.ne_nil_of_length_pos (Nat.zero_lt_of_lt hlong))).trans (if_pos hlong)

theorem parseGs1_bracketed_of_not_sized (h : ∀ f ∈ fields, f.Shaped) (hlen : fields.length ≤ p.aiMax)
    (hsized : ∃ f ∈ fields, ¬f.Sized p) : parseGs1 p (bracketed fields) = .error .invalidFormat := by
  obtain ⟨f, hf, hbad⟩ := hsized
  rw [parseGs1_bracketed h (List.ne_nil_of_mem hf), if_neg (Nat.not_lt.mpr hlen)]
  split_ifs with hempty hall
  · rfl
  · exact absurd (forall_sized_iff.mpr ⟨hempty, hall⟩ f hf) hbad
  · rfl

/-- Whatever the parser accepts is the message of shaped fields. -/
theorem exists_shaped_of_parseGs1 (h : parseGs1 p msg = .ok r) :
    ∃ fields, fields ≠ [] ∧ (∀ f ∈ fields, f.Shaped) ∧ msg = bracketed fields := by
  have hset : ∀ c ∈ msg, inGs1Set c = true := by
    by_contra hbad
    simp only [not_forall, Bool.not_eq_true, exists_prop] at hbad
    exact nomatch (parseGs1_of_character hbad).symm.trans h
  have hhead : msg.head? = some openBracket := by
    by_contra hhead
    exact nomatch (parseGs1_of_head hset hhead).symm.trans h
  obtain ⟨cs, rfl⟩ := List.head?_eq_some_iff.mp hhead
  obtain ⟨-, m, hscan, -⟩ := parseGs1_ok h
  obtain ⟨fields, hne, hframed, heq⟩ := exists_bracketed_of_scanStructure cs hscan
  exact ⟨fields, hne, fun f hf => AiField.shaped_iff.mpr ⟨hframed f hf, fun c hc =>
    hset c (heq ▸ data_subset_bracketed hf hc)⟩, heq⟩

/-! The command. -/

theorem exec_aiGs1 (h : parseGs1 s.cfg (s.getC src) = .ok r) :
    exec (.aiGs1 src dst) s = .next ((s.setC dst r.out).setAir r.recs).succeed := exec_eq_of_ok rfl (by rw [h])

theorem aiGs1_fails {k : ErrorKind} (h : parseGs1 s.cfg (s.getC src) = .error k) : FailsWith (.aiGs1 src dst) s k :=
  failsWith_of_error rfl (by rw [h])

theorem exists_parseGs1_of_exec (hexec : exec (.aiGs1 src dst) s = .next t) (hst : t.st = 0) :
    ∃ r, parseGs1 s.cfg (s.getC src) = .ok r ∧ t = ((s.setC dst r.out).setAir r.recs).succeed := by
  cases h : parseGs1 s.cfg (s.getC src) with
  | ok r => exact ⟨r, rfl, (Host.Outcome.next.inj ((exec_aiGs1 h).symm.trans hexec)).symm⟩
  | error k =>
    obtain rfl := Host.Outcome.next.inj (Eq.trans (aiGs1_fails (dst := dst) h).symm hexec)
    exact absurd hst (failStatus_ne_zero k)

/-! The obligations. -/

/-- Settles O45: a record is that of the place where its field stands in the output, which fits the record's fields. -/
theorem gs1Normalizes : Obligations.Gs1Normalizes := by
  refine ⟨fun a b rest v _ _ hv => hv ▸ (noSep_cons_cons_iff a b rest).trans mem_noSepSet_iff,
    fun s src dst fields hp hne hmax hvalid hmsg hfits => ?_⟩
  have hshaped : ∀ f ∈ fields, f.Shaped := fun f hf => (hvalid f hf).1
  have hparse : parseGs1 s.cfg (s.getC src) = .ok (rewriteAll fields) :=
    hmsg ▸ (parseGs1_bracketed_ok_iff hshaped hne).mpr ⟨hmax, fun f hf => (hvalid f hf).2, rfl⟩
  have hlen : (flattened fields).length < 2 ^ 16 := by
    have hshorter := flattened_length hne
    have hhigh := hp.charsHigh
    rw [hmsg] at hfits
    omega
  refine ⟨_, exec_aiGs1 hparse, rfl, fun k hk => s.getC_setC_other dst k _ hk, ?_⟩
  have hout : (((s.setC dst (rewriteAll fields).out).setAir (rewriteAll fields).recs).succeed).getC dst =
      flattened fields := by
    rw [State.getC_succeed, State.getC_setAir, State.getC_setC_same, rewriteAll_out]
  rw [hout]
  exact ⟨rfl, rewriteAll_recs_length fields, fun n f r hf hr =>
    (rewriteAll_placed hf hr).reads (hshaped f (List.mem_of_getElem? hf)) hlen⟩

/-- Settles O46: the parser accepts only the message of valid fields, and the properties of R276 are those of its
normalized message. -/
theorem gs1AcceptsOnlyValidMessages : Obligations.Gs1AcceptsOnlyValidMessages := by
  intro s t src dst hexec hst
  obtain ⟨r, hparse, rfl⟩ := exists_parseGs1_of_exec hexec hst
  obtain ⟨fields, hne, hshaped, hmsg⟩ := exists_shaped_of_parseGs1 hparse
  obtain ⟨hmax, hsized, rfl⟩ := (parseGs1_bracketed_ok_iff hshaped hne).mp (hmsg ▸ hparse)
  have hframed : ∀ f ∈ fields, f.Framed := fun f hf => (AiField.shaped_iff.mp (hshaped f hf)).1
  obtain ⟨hopen, hclose⟩ := noBracket_flattened hframed
  refine ⟨⟨fields, hne, hmax, fun f hf => ⟨hshaped f hf, hsized f hf⟩, hmsg⟩, ?_⟩
  rw [State.getC_succeed, State.getC_setAir, State.getC_setC_same, State.succeed_air, State.setAir_air, rewriteAll_out,
    rewriteAll_recs_length, hmsg]
  exact ⟨hopen, hclose, head?_flattened_ne_sep hframed, flattened_length hne, List.length_pos_iff.mpr hne⟩

/-- Settles O47: each failure is that of the first test of R271 that the message does not pass. -/
theorem gs1Errors : Obligations.Gs1Errors := by
  refine ⟨lengthOk_iff_printed, fun s src dst =>
    ⟨fun h => ?character, fun hchars => ?brackets, fun fields hshaped hmsg => ?fields⟩⟩
  case character =>
    obtain ⟨c, hc, hout⟩ := h
    have hcode : inGs1Set c = false := Bool.eq_false_iff.mpr fun hin => by
      have := inGs1Set_iff.mp hin
      omega
    exact aiGs1_fails (parseGs1_of_character ⟨c, hc, hcode⟩)
  case brackets =>
    have hset : ∀ c ∈ s.getC src, inGs1Set c = true := fun c hc => inGs1Set_iff.mpr (hchars c hc)
    have hrejected (h : ∀ m, scanStructure (s.getC src) none 0 ≠ .ok m) :
        FailsWith (.aiGs1 src dst) s .invalidFormat := aiGs1_fails (parseGs1_of_scanStructure hset h)
    refine ⟨fun hhead => aiGs1_fails (parseGs1_of_head hset hhead),
      fun pre mid post h hmid => hrejected fun m => h ▸ scanStructure_nested pre post hmid,
      fun pre mid post h hmid => hrejected fun m => h ▸ scanStructure_stray_close pre post hmid,
      fun pre tok h htok => hrejected fun m => h ▸ scanStructure_unclosed pre htok,
      fun pre tok post h _ htok hbad => hrejected fun m => h ▸ scanStructure_bad_token pre post htok fun hok => ?_⟩
    obtain ⟨hlow, hhigh, hdigits⟩ := tokenOk_iff.mp hok
    obtain hshort | hlong | ⟨c, hc, hnot⟩ := hbad
    · omega
    · omega
    · exact Bool.false_ne_true (hnot.symm.trans (hdigits c hc))
  case fields =>
    exact ⟨fun hlong => aiGs1_fails (hmsg ▸ parseGs1_bracketed_of_long hshaped hlong),
      fun hlen hsized => aiGs1_fails (hmsg ▸ parseGs1_bracketed_of_not_sized hshaped hlen hsized)⟩

end Sys2Proof.Machine
end

section
/-! The characters and the look-aheads of the compactor (R292, R295, R296). -/

namespace Sys2Proof.Machine

variable {c : Char8} {rest cs : List Char8} {p : Params}

/-! Classes that exclude each other. -/

theorem isSep_iff : isSep c = true ↔ c = 0x1D := beq_iff_eq

theorem isDigit_eq_false_of_isSep (h : isSep c = true) : isDigit c = false := by
  rw [isSep_iff.mp h]
  rfl

theorem isSep_eq_false_of_isDigit (h : isDigit c = true) : isSep c = false :=
  Bool.eq_false_iff.mpr fun hsep => Bool.false_ne_true ((isDigit_eq_false_of_isSep hsep).symm.trans h)

theorem isDigit_eq_false_of_isUpper (h : isUpper c = true) : isDigit c = false := by
  rw [Bool.eq_false_iff, ne_eq, isDigit_iff]
  rw [isUpper_iff] at h
  omega

theorem isDigit_eq_false_of_isLower (h : isLower c = true) : isDigit c = false := by
  rw [Bool.eq_false_iff, ne_eq, isDigit_iff]
  rw [isLower_iff] at h
  omega

theorem isSep_eq_false_of_isUpper (h : isUpper c = true) : isSep c = false := by
  rw [Bool.eq_false_iff, ne_eq, isSep_iff]
  rintro rfl
  exact absurd h (by decide)

theorem isSep_eq_false_of_isLower (h : isLower c = true) : isSep c = false := by
  rw [Bool.eq_false_iff, ne_eq, isSep_iff]
  rintro rfl
  exact absurd h (by decide)

theorem isPairChar_iff : isPairChar c = true ↔ isDigit c = true ∨ isSep c = true := Bool.or_eq_true_iff

theorem isAlnChar_iff {d : DcCodes} :
    d.isAlnChar c = true ↔ isDigit c = true ∨ isUpper c = true ∨ d.isAlnPunct c = true := by
  rw [DcCodes.isAlnChar, Bool.or_eq_true_iff, Bool.or_eq_true_iff, or_assoc]

/-! Look-aheads: the machine counts the characters of a class in a row, the rules ask for some of that class. -/

/-- At least `n` characters of a class stand in a row exactly when there are `n` characters and all are of it. -/
theorem le_length_takeWhile_iff (q : Char8 → Bool) : ∀ (n : Nat) (cs : List Char8),
    n ≤ (cs.takeWhile q).length ↔ n ≤ cs.length ∧ ∀ c ∈ cs.take n, q c = true
  | 0, cs => by simp
  | n + 1, [] => by simp
  | n + 1, c :: cs => by
    have ih := le_length_takeWhile_iff q n cs
    cases hc : q c <;> simp [hc, ih]

theorem numericAhead_iff : numericAhead cs = true ↔ DigitsAhead cs := by
  have hall : 4 ≤ digitRun cs ∧ digitRun cs = cs.length ↔ 4 ≤ cs.length ∧ ∀ c ∈ cs, isDigit c = true := by
    rw [← List.takeWhile_eq_self_iff, digitRun]
    refine ⟨fun ⟨h, hlen⟩ => ⟨by omega, (List.takeWhile_prefix _).eq_of_length hlen⟩, fun ⟨h, heq⟩ => ?_⟩
    rw [heq]
    exact ⟨h, rfl⟩
  rw [numericAhead, Bool.or_eq_true_iff, Bool.and_eq_true_iff, decide_eq_true_iff, decide_eq_true_iff,
    decide_eq_true_iff, hall, DigitsAhead, ← le_length_takeWhile_iff, digitRun]

theorem alnAhead_iff : AlnAhead p cs ↔ p.dcIso2AlnRun ≤ alnRun p.dcCodes cs :=
  (le_length_takeWhile_iff _ _ _).symm

/-- A run of digits begins with two of them. -/
theorem DigitsAhead.two_digits (h : DigitsAhead (c :: rest)) :
    isDigit c = true ∧ ∃ b bs, rest = b :: bs ∧ isDigit b = true := by
  match rest with
  | [] => obtain ⟨hlen, -⟩ | ⟨hlen, -⟩ := h <;> simp at hlen
  | b :: bs =>
    obtain ⟨-, hall⟩ | ⟨-, hall⟩ := h
    · exact ⟨hall c (by simp), b, bs, rfl, hall b (by simp)⟩
    · exact ⟨hall c (by simp), b, bs, rfl, hall b (by simp)⟩

theorem not_digitsAhead_of_isDigit_eq_false (h : isDigit c = false) : ¬DigitsAhead (c :: rest) :=
  fun hahead => Bool.false_ne_true (h.symm.trans hahead.two_digits.1)

theorem not_digitsAhead_of_isAlnChar_eq_false {d : DcCodes} (h : d.isAlnChar c = false) : ¬DigitsAhead (c :: rest) :=
  fun hahead => Bool.false_ne_true (h.symm.trans (isAlnChar_iff.mpr (.inl hahead.two_digits.1)))

theorem alnRun_eq_zero {d : DcCodes} (h : d.isAlnChar c = false) : alnRun d (c :: rest) = 0 := by
  rw [alnRun, List.takeWhile_cons, h, if_neg Bool.false_ne_true, List.length_nil]

/-- A character ALPHANUMERIC cannot encode ends every look-ahead of at least one character. -/
theorem not_alnAhead_of_isAlnChar_eq_false (hrun : 1 ≤ p.dcIso2AlnRun) (h : p.dcCodes.isAlnChar c = false) :
    ¬AlnAhead p (c :: rest) := by
  rw [alnAhead_iff, alnRun_eq_zero h]
  exact Nat.not_le.mpr hrun

end Sys2Proof.Machine
end

section
/-! The steps of the compactor (R294 to R297): one equation for each branch of each mode, under the conditions the rules
state it with. -/

namespace Sys2Proof.Machine

variable {a b c : Char8} {rest bs : List Char8} {d : DcCodes} {p : Params} {run : Nat}

/-! NUMERIC (R294). -/

theorem pairCode_eq (u v : Nat) : pairCode u v = msbBits (u * 11 + v + 8) 7 := by rw [pairCode, Nat.mul_comm]

theorem pairValue_of_isDigit (h : isDigit c = true) : pairValue c = dval c := by
  rw [pairValue, isSep_eq_false_of_isDigit h, if_neg Bool.false_ne_true]

theorem numStep_pair (ha : isPairChar a = true) (hb : isPairChar b = true) (hab : ¬(isSep a = true ∧ isSep b = true)) :
    numStep d a (b :: bs) = { bits := msbBits (pairValue a * 11 + pairValue b + 8) 7, taken := 2, mode := .num } := by
  have hnot : (isSep a && isSep b) = false := by rwa [Bool.eq_false_iff, ne_eq, Bool.and_eq_true_iff]
  have hcond : (isPairChar a && isPairChar b && !(isSep a && isSep b)) = true := by rw [ha, hb, hnot]; rfl
  rw [← pairCode_eq]
  exact if_pos hcond

theorem numStep_lastDigit (h : isDigit a = true) :
    numStep d a [] = { bits := msbBits (dval a * 11 + 10 + 8) 7, taken := 1, mode := .num } := by
  rw [← pairCode_eq, ← pairValue_of_isDigit h]
  exact if_pos h

theorem numStep_latch (h : NumLatches c rest) :
    numStep d c rest = { bits := codeBits d.numToAln, taken := 0, mode := .aln } := by
  match rest with
  | [] =>
    have hc : isDigit c = false := by
      obtain hc | ⟨b, hb, -⟩ | ⟨hc, -⟩ := h
      · exact (Bool.or_eq_false_iff.mp hc).1
      · exact nomatch hb
      · exact isDigit_eq_false_of_isSep hc
    exact if_neg (by rw [hc]; exact Bool.false_ne_true)
  | b :: bs =>
    have hcond : ¬(isPairChar c && isPairChar b && !(isSep c && isSep b)) = true := by
      obtain hc | ⟨b', hb', hb⟩ | ⟨hc, hnil | hhead⟩ := h
      · simp [hc]
      · obtain rfl := Option.some.inj hb'
        simp [hb]
      · exact nomatch hnil
      · obtain rfl := Option.some.inj hhead
        rw [hc, show isSep Config.sep = true from rfl]
        simp
    exact if_neg hcond

/-- The three branches of R294. -/
theorem num_cases (c : Char8) (rest : List Char8) :
    NumLatches c rest ∨ (isDigit c = true ∧ rest = []) ∨
      ∃ b bs, rest = b :: bs ∧ isPairChar c = true ∧ isPairChar b = true ∧ ¬(isSep c = true ∧ isSep b = true) := by
  by_cases hlatch : NumLatches c rest
  · exact .inl hlatch
  · simp only [NumLatches, not_or, not_and, not_exists, Bool.not_eq_false] at hlatch
    obtain ⟨hc, hhead, hsep⟩ := hlatch
    match rest with
    | [] => exact .inr (.inl ⟨(isPairChar_iff.mp hc).resolve_right fun h => (hsep h).1 rfl, rfl⟩)
    | b :: bs =>
      exact .inr (.inr ⟨b, bs, rfl, hc, hhead b rfl, fun ⟨hcs, hbs⟩ => (hsep hcs).2 (congrArg some (isSep_iff.mp hbs))⟩)

/-- Digits ahead are paired: no look-ahead into NUMERIC leads to the latch out of it. -/
theorem not_digitsAhead_of_numLatches (h : NumLatches c rest) : ¬DigitsAhead (c :: rest) := by
  intro hahead
  obtain ⟨hc, b, bs, rfl, hb⟩ := hahead.two_digits
  obtain hnot | ⟨b', hb', hnot⟩ | ⟨hsep, -⟩ := h
  · exact Bool.false_ne_true (hnot.symm.trans (isPairChar_iff.mpr (.inl hc)))
  · obtain rfl := Option.some.inj hb'
    exact Bool.false_ne_true (hnot.symm.trans (isPairChar_iff.mpr (.inl hb)))
  · exact Bool.false_ne_true ((isSep_eq_false_of_isDigit hc).symm.trans hsep)

/-! ALPHANUMERIC (R295). -/

theorem alnStep_toNum (h : DigitsAhead (c :: rest)) :
    alnStep d c rest = { bits := d.toNumBits, taken := 0, mode := .num } := if_pos (numericAhead_iff.mpr h)

theorem alnStep_digit (h : ¬DigitsAhead (c :: rest)) (hc : isDigit c = true) :
    alnStep d c rest = { bits := d.digitBits c, taken := 1, mode := .aln } := by
  rw [alnStep, if_neg (mt numericAhead_iff.mp h), if_pos hc]

theorem alnStep_sep (hc : isSep c = true) :
    alnStep d c rest = { bits := codeBits d.sep5, taken := 1, mode := .num } := by
  have hdigit := isDigit_eq_false_of_isSep hc
  rw [alnStep, if_neg (mt numericAhead_iff.mp (not_digitsAhead_of_isDigit_eq_false hdigit)), hdigit,
    if_neg Bool.false_ne_true, if_pos hc]

theorem alnStep_char (hdigit : isDigit c = false) (hsep : isSep c = false)
    (hc : isUpper c = true ∨ d.isAlnPunct c = true) :
    alnStep d c rest = { bits := d.alnBits c, taken := 1, mode := .aln } := by
  rw [alnStep, if_neg (mt numericAhead_iff.mp (not_digitsAhead_of_isDigit_eq_false hdigit)), hdigit, hsep,
    if_neg Bool.false_ne_true, if_neg Bool.false_ne_true, if_pos (Bool.or_eq_true_iff.mpr hc)]

theorem alnStep_toIso (hc : d.isAlnChar c = false) (hsep : isSep c = false) :
    alnStep d c rest = { bits := codeBits d.alnIso, taken := 0, mode := .iso } := by
  rw [DcCodes.isAlnChar, Bool.or_eq_false_iff, Bool.or_eq_false_iff] at hc
  obtain ⟨⟨hdigit, hupper⟩, hpunct⟩ := hc
  rw [alnStep, if_neg (mt numericAhead_iff.mp (not_digitsAhead_of_isDigit_eq_false hdigit)), hdigit, hsep, hupper,
    hpunct]
  rfl

/-- The five branches of R295. -/
theorem aln_cases (d : DcCodes) (c : Char8) (rest : List Char8) :
    DigitsAhead (c :: rest) ∨ (¬DigitsAhead (c :: rest) ∧ isDigit c = true) ∨ isSep c = true ∨
      (isDigit c = false ∧ isSep c = false ∧ (isUpper c = true ∨ d.isAlnPunct c = true)) ∨
      (d.isAlnChar c = false ∧ isSep c = false) := by
  have hclass : d.isAlnChar c = false ↔ ¬(isDigit c = true ∨ isUpper c = true ∨ d.isAlnPunct c = true) := by
    rw [← isAlnChar_iff, Bool.not_eq_true]
  rw [hclass, ← Bool.not_eq_true, ← Bool.not_eq_true]
  tauto

/-! ISO (R296). -/

theorem isoStep_toNum (h : DigitsAhead (c :: rest)) :
    isoStep d run c rest = .ok { bits := d.toNumBits, taken := 0, mode := .num } := if_pos (numericAhead_iff.mpr h)

theorem isoStep_toAln (h : ¬DigitsAhead (c :: rest)) (haln : AlnAhead p (c :: rest)) :
    isoStep p.dcCodes p.dcIso2AlnRun c rest =
      .ok { bits := codeBits p.dcCodes.alnIso, taken := 0, mode := .aln } := by
  rw [isoStep, if_neg (mt numericAhead_iff.mp h), if_pos (alnAhead_iff.mp haln)]

/-- Where ISO mode does not latch, the class of the character decides. -/
theorem isoStep_of_not_ahead (h : ¬DigitsAhead (c :: rest)) (haln : ¬AlnAhead p (c :: rest)) :
    isoStep p.dcCodes p.dcIso2AlnRun c rest =
      if isDigit c then .ok { bits := p.dcCodes.digitBits c, taken := 1, mode := .iso }
      else if isSep c then .ok { bits := codeBits p.dcCodes.sep5, taken := 1, mode := .num }
      else if isUpper c || isLower c then .ok { bits := p.dcCodes.isoLetterBits c, taken := 1, mode := .iso }
      else if p.dcCodes.isIsoPunct c then .ok { bits := p.dcCodes.isoPunctBits c, taken := 1, mode := .iso }
      else .error .invalidCharacter := by
  rw [isoStep, if_neg (mt numericAhead_iff.mp h), if_neg (mt alnAhead_iff.mpr haln)]

theorem isoStep_digit (h : ¬DigitsAhead (c :: rest)) (haln : ¬AlnAhead p (c :: rest)) (hc : isDigit c = true) :
    isoStep p.dcCodes p.dcIso2AlnRun c rest =
      .ok { bits := p.dcCodes.digitBits c, taken := 1, mode := .iso } := by
  rw [isoStep_of_not_ahead h haln, if_pos hc]

theorem isoStep_sep (haln : ¬AlnAhead p (c :: rest)) (hc : isSep c = true) :
    isoStep p.dcCodes p.dcIso2AlnRun c rest =
      .ok { bits := codeBits p.dcCodes.sep5, taken := 1, mode := .num } := by
  have hdigit := isDigit_eq_false_of_isSep hc
  rw [isoStep_of_not_ahead (not_digitsAhead_of_isDigit_eq_false hdigit) haln, hdigit, if_neg Bool.false_ne_true,
    if_pos hc]

theorem isoStep_letter (haln : ¬AlnAhead p (c :: rest)) (hc : isUpper c = true ∨ isLower c = true) :
    isoStep p.dcCodes p.dcIso2AlnRun c rest =
      .ok { bits := p.dcCodes.isoLetterBits c, taken := 1, mode := .iso } := by
  have hdigit := hc.elim isDigit_eq_false_of_isUpper isDigit_eq_false_of_isLower
  have hsep := hc.elim isSep_eq_false_of_isUpper isSep_eq_false_of_isLower
  rw [isoStep_of_not_ahead (not_digitsAhead_of_isDigit_eq_false hdigit) haln, hdigit, hsep, if_neg Bool.false_ne_true,
    if_neg Bool.false_ne_true, if_pos (Bool.or_eq_true_iff.mpr hc)]

theorem isoStep_punct (haln : ¬AlnAhead p (c :: rest)) (hdigit : isDigit c = false) (hsep : isSep c = false)
    (hupper : isUpper c = false) (hlower : isLower c = false) (hc : p.dcCodes.isIsoPunct c = true) :
    isoStep p.dcCodes p.dcIso2AlnRun c rest =
      .ok { bits := p.dcCodes.isoPunctBits c, taken := 1, mode := .iso } := by
  rw [isoStep_of_not_ahead (not_digitsAhead_of_isDigit_eq_false hdigit) haln, hdigit, hsep, hupper, hlower, hc]
  rfl

theorem isoStep_invalid (haln : ¬AlnAhead p (c :: rest)) (hc : isoEncodable p.dcCodes c = false) :
    isoStep p.dcCodes p.dcIso2AlnRun c rest = .error .invalidCharacter := by
  simp only [isoEncodable, Bool.or_eq_false_iff] at hc
  obtain ⟨⟨⟨⟨hdigit, hsep⟩, hupper⟩, hlower⟩, hpunct⟩ := hc
  rw [isoStep_of_not_ahead (not_digitsAhead_of_isDigit_eq_false hdigit) haln, hdigit, hsep, hupper, hlower, hpunct]
  rfl

/-- The seven branches of R296. -/
theorem iso_cases (p : Params) (c : Char8) (rest : List Char8) :
    DigitsAhead (c :: rest) ∨ (¬DigitsAhead (c :: rest) ∧ AlnAhead p (c :: rest)) ∨
      (¬AlnAhead p (c :: rest) ∧
        ((¬DigitsAhead (c :: rest) ∧ isDigit c = true) ∨ isSep c = true ∨ (isUpper c = true ∨ isLower c = true) ∨
          (isDigit c = false ∧ isSep c = false ∧ isUpper c = false ∧ isLower c = false ∧
            p.dcCodes.isIsoPunct c = true) ∨
          isoEncodable p.dcCodes c = false)) := by
  simp only [isoEncodable, ← Bool.not_eq_true, Bool.or_eq_true_iff]
  tauto

/-! ALPHA-only (R297). -/

theorem alpStep_letter (hc : isUpper c = true) :
    alpStep d c = .ok { bits := d.alpLetterBits c, taken := 1, mode := .alp } := if_pos hc

theorem alpStep_digit (hc : isDigit c = true) :
    alpStep d c = .ok { bits := Machine.alpDigit c, taken := 1, mode := .alp } := by
  have hupper : isUpper c = false := Bool.eq_false_iff.mpr fun h =>
    Bool.false_ne_true ((isDigit_eq_false_of_isUpper h).symm.trans hc)
  rw [alpStep, hupper, if_neg Bool.false_ne_true, if_pos hc]

theorem alpStep_sep (hc : isSep c = true) :
    alpStep d c = .ok { bits := codeBits d.alpEnd, taken := 1, mode := .num } := by
  have hupper : isUpper c = false := Bool.eq_false_iff.mpr fun h =>
    Bool.false_ne_true ((isSep_eq_false_of_isUpper h).symm.trans hc)
  rw [alpStep, hupper, isDigit_eq_false_of_isSep hc, if_neg Bool.false_ne_true, if_neg Bool.false_ne_true, if_pos hc]

theorem alpStep_invalid (hupper : isUpper c = false) (hdigit : isDigit c = false) (hsep : isSep c = false) :
    alpStep d c = .error .invalidCharacter := by
  rw [alpStep, hupper, hdigit, hsep]
  rfl

/-- The four branches of R297. -/
theorem alp_cases (c : Char8) :
    isUpper c = true ∨ isDigit c = true ∨ isSep c = true ∨
      (isUpper c = false ∧ isDigit c = false ∧ isSep c = false) := by
  simp only [← Bool.not_eq_true]
  tauto

end Sys2Proof.Machine
end

section
/-! The state machine of the compactor (R298, R299) against the relation `Encodes`: one step of the machine is one rule,
a run with enough turns is a derivation. -/

namespace Sys2Proof.Machine

variable {p : Params} {m md : DcMode} {c : Char8} {rest cs : List Char8} {bits acc : List Bool} {e : Emit}
  {r : Compacted} {turns : Nat}

/-! One step. -/

/-- The first rule of a derivation is the machine's step. -/
theorem exists_compactStep_of_encodes (h : Encodes p m (c :: rest) bits md) :
    ∃ e bits', compactStep p m c rest = .ok e ∧ bits = e.bits ++ bits' ∧
      Encodes p e.mode ((c :: rest).drop e.taken) bits' md := by
  cases h with
  | pair ha hb hab h => exact ⟨_, _, congrArg Except.ok (numStep_pair ha hb hab), rfl, h⟩
  | lastDigit ha =>
    exact ⟨_, [], congrArg Except.ok (numStep_lastDigit ha), (List.append_nil _).symm, .done .num⟩
  | numToAln hlatch h => exact ⟨_, _, congrArg Except.ok (numStep_latch hlatch), rfl, h⟩
  | toNum hm hahead h =>
    obtain rfl | rfl := hm
    · exact ⟨_, _, congrArg Except.ok (alnStep_toNum hahead), rfl, h⟩
    · exact ⟨_, _, isoStep_toNum hahead, rfl, h⟩
  | isoToAln hahead haln h => exact ⟨_, _, isoStep_toAln hahead haln, rfl, h⟩
  | digit hm hahead hc h =>
    obtain rfl | ⟨rfl, haln⟩ := hm
    · exact ⟨_, _, congrArg Except.ok (alnStep_digit hahead hc), rfl, h⟩
    · exact ⟨_, _, isoStep_digit hahead haln hc, rfl, h⟩
  | sep hm hc h =>
    obtain rfl | ⟨rfl, haln⟩ := hm
    · exact ⟨_, _, congrArg Except.ok (alnStep_sep hc), rfl, h⟩
    · exact ⟨_, _, isoStep_sep haln hc, rfl, h⟩
  | alnChar hdigit hsep hc h => exact ⟨_, _, congrArg Except.ok (alnStep_char hdigit hsep hc), rfl, h⟩
  | alnToIso hc hsep h => exact ⟨_, _, congrArg Except.ok (alnStep_toIso hc hsep), rfl, h⟩
  | isoLetter haln hc h => exact ⟨_, _, isoStep_letter haln hc, rfl, h⟩
  | isoPunct haln hdigit hsep hupper hlower hc h =>
    exact ⟨_, _, isoStep_punct haln hdigit hsep hupper hlower hc, rfl, h⟩
  | alpLetter hc h => exact ⟨_, _, alpStep_letter hc, rfl, h⟩
  | alpDigit hc h => exact ⟨_, _, alpStep_digit hc, rfl, h⟩
  | alpEnd hc h => exact ⟨_, _, alpStep_sep hc, rfl, h⟩

/-- The rules of R294 to R297 as single steps: what a step that does not fail emits from the character `c` in a mode, with
the characters `rest` behind it, under the conditions of the rule. -/
inductive StepRule (p : Params) (c : Char8) : List Char8 → DcMode → Emit → Prop
  | pair {b : Char8} {bs : List Char8} (hc : isPairChar c = true) (hb : isPairChar b = true)
      (hcb : ¬(isSep c = true ∧ isSep b = true)) :
      StepRule p c (b :: bs) .num
        { bits := msbBits (pairValue c * 11 + pairValue b + 8) 7, taken := 2, mode := .num }
  | lastDigit (hc : isDigit c = true) :
      StepRule p c [] .num { bits := msbBits (dval c * 11 + 10 + 8) 7, taken := 1, mode := .num }
  | numToAln {rest : List Char8} (h : NumLatches c rest) :
      StepRule p c rest .num { bits := codeBits p.dcCodes.numToAln, taken := 0, mode := .aln }
  | toNum {rest : List Char8} {m : DcMode} (hm : m = .aln ∨ m = .iso) (h : DigitsAhead (c :: rest)) :
      StepRule p c rest m { bits := p.dcCodes.toNumBits, taken := 0, mode := .num }
  | isoToAln {rest : List Char8} (h : ¬DigitsAhead (c :: rest)) (haln : AlnAhead p (c :: rest)) :
      StepRule p c rest .iso { bits := codeBits p.dcCodes.alnIso, taken := 0, mode := .aln }
  | digit {rest : List Char8} {m : DcMode} (hm : m = .aln ∨ (m = .iso ∧ ¬AlnAhead p (c :: rest)))
      (h : ¬DigitsAhead (c :: rest)) (hc : isDigit c = true) :
      StepRule p c rest m { bits := p.dcCodes.digitBits c, taken := 1, mode := m }
  | sep {rest : List Char8} {m : DcMode} (hm : m = .aln ∨ (m = .iso ∧ ¬AlnAhead p (c :: rest)))
      (hc : isSep c = true) : StepRule p c rest m { bits := codeBits p.dcCodes.sep5, taken := 1, mode := .num }
  | alnChar {rest : List Char8} (hdigit : isDigit c = false) (hsep : isSep c = false)
      (hc : isUpper c = true ∨ p.dcCodes.isAlnPunct c = true) :
      StepRule p c rest .aln { bits := p.dcCodes.alnBits c, taken := 1, mode := .aln }
  | alnToIso {rest : List Char8} (hc : p.dcCodes.isAlnChar c = false) (hsep : isSep c = false) :
      StepRule p c rest .aln { bits := codeBits p.dcCodes.alnIso, taken := 0, mode := .iso }
  | isoLetter {rest : List Char8} (haln : ¬AlnAhead p (c :: rest)) (hc : isUpper c = true ∨ isLower c = true) :
      StepRule p c rest .iso { bits := p.dcCodes.isoLetterBits c, taken := 1, mode := .iso }
  | isoPunct {rest : List Char8} (haln : ¬AlnAhead p (c :: rest)) (hdigit : isDigit c = false)
      (hsep : isSep c = false) (hupper : isUpper c = false) (hlower : isLower c = false)
      (hc : p.dcCodes.isIsoPunct c = true) :
      StepRule p c rest .iso { bits := p.dcCodes.isoPunctBits c, taken := 1, mode := .iso }
  | alpLetter {rest : List Char8} (hc : isUpper c = true) :
      StepRule p c rest .alp { bits := p.dcCodes.alpLetterBits c, taken := 1, mode := .alp }
  | alpDigit {rest : List Char8} (hc : isDigit c = true) :
      StepRule p c rest .alp { bits := Machine.alpDigit c, taken := 1, mode := .alp }
  | alpEnd {rest : List Char8} (hc : isSep c = true) :
      StepRule p c rest .alp { bits := codeBits p.dcCodes.alpEnd, taken := 1, mode := .num }

/-- A step is the rule whose conditions hold; without one it fails, on a character that ISO mode does not encode or in
ALPHA-only mode. -/
theorem compactStep_cases (p : Params) (m : DcMode) (c : Char8) (rest : List Char8) :
    (compactStep p m c rest = .error .invalidCharacter ∧ (m = .alp ∨ isoEncodable p.dcCodes c = false)) ∨
      ∃ e, compactStep p m c rest = .ok e ∧ StepRule p c rest m e := by
  cases m with
  | num =>
    right
    obtain hlatch | ⟨hc, rfl⟩ | ⟨b, bs, rfl, hc, hb, hcb⟩ := num_cases c rest
    · exact ⟨_, congrArg Except.ok (numStep_latch hlatch), .numToAln hlatch⟩
    · exact ⟨_, congrArg Except.ok (numStep_lastDigit hc), .lastDigit hc⟩
    · exact ⟨_, congrArg Except.ok (numStep_pair hc hb hcb), .pair hc hb hcb⟩
  | aln =>
    right
    obtain hahead | ⟨hahead, hc⟩ | hc | ⟨hdigit, hsep, hc⟩ | ⟨hc, hsep⟩ := aln_cases p.dcCodes c rest
    · exact ⟨_, congrArg Except.ok (alnStep_toNum hahead), .toNum (.inl rfl) hahead⟩
    · exact ⟨_, congrArg Except.ok (alnStep_digit hahead hc), .digit (.inl rfl) hahead hc⟩
    · exact ⟨_, congrArg Except.ok (alnStep_sep hc), .sep (.inl rfl) hc⟩
    · exact ⟨_, congrArg Except.ok (alnStep_char hdigit hsep hc), .alnChar hdigit hsep hc⟩
    · exact ⟨_, congrArg Except.ok (alnStep_toIso hc hsep), .alnToIso hc hsep⟩
  | iso =>
    obtain hahead | ⟨hahead, haln⟩ | ⟨haln, ⟨hahead, hc⟩ | hc | hc | ⟨hdigit, hsep, hupper, hlower, hc⟩ | hc⟩ :=
      iso_cases p c rest
    · exact .inr ⟨_, isoStep_toNum hahead, .toNum (.inr rfl) hahead⟩
    · exact .inr ⟨_, isoStep_toAln hahead haln, .isoToAln hahead haln⟩
    · exact .inr ⟨_, isoStep_digit hahead haln hc, .digit (.inr ⟨rfl, haln⟩) hahead hc⟩
    · exact .inr ⟨_, isoStep_sep haln hc, .sep (.inr ⟨rfl, haln⟩) hc⟩
    · exact .inr ⟨_, isoStep_letter haln hc, .isoLetter haln hc⟩
    · exact .inr ⟨_, isoStep_punct haln hdigit hsep hupper hlower hc, .isoPunct haln hdigit hsep hupper hlower hc⟩
    · exact .inl ⟨isoStep_invalid haln hc, .inr hc⟩
  | alp =>
    obtain hc | hc | hc | ⟨hupper, hdigit, hsep⟩ := alp_cases c
    · exact .inr ⟨_, alpStep_letter hc, .alpLetter hc⟩
    · exact .inr ⟨_, alpStep_digit hc, .alpDigit hc⟩
    · exact .inr ⟨_, alpStep_sep hc, .alpEnd hc⟩
    · exact .inl ⟨alpStep_invalid hupper hdigit hsep, .inl rfl⟩

theorem stepRule_of_compactStep (h : compactStep p m c rest = .ok e) : StepRule p c rest m e := by
  obtain ⟨hfail, -⟩ | ⟨e', hok, hrule⟩ := compactStep_cases p m c rest
  · exact nomatch hfail.symm.trans h
  · obtain rfl := Except.ok.inj (hok.symm.trans h)
    exact hrule

theorem compactStep_error {k : ErrorKind} (h : compactStep p m c rest = .error k) :
    k = .invalidCharacter ∧ (m = .alp ∨ isoEncodable p.dcCodes c = false) := by
  obtain ⟨hfail, hwhy⟩ | ⟨e, hok, -⟩ := compactStep_cases p m c rest
  · exact ⟨(Except.error.inj (hfail.symm.trans h)).symm, hwhy⟩
  · exact nomatch hok.symm.trans h

/-- The rule of a step continues whatever the characters behind it become. -/
theorem StepRule.encodes (hrule : StepRule p c rest m e)
    (h : Encodes p e.mode ((c :: rest).drop e.taken) bits md) : Encodes p m (c :: rest) (e.bits ++ bits) md := by
  cases hrule with
  | pair hc hb hcb => exact .pair hc hb hcb h
  | lastDigit hc =>
    cases h
    rw [List.append_nil]
    exact .lastDigit hc
  | numToAln hlatch => exact .numToAln hlatch h
  | toNum hm hahead => exact .toNum hm hahead h
  | isoToAln hahead haln => exact .isoToAln hahead haln h
  | digit hm hahead hc => exact .digit hm hahead hc h
  | sep hm hc => exact .sep hm hc h
  | alnChar hdigit hsep hc => exact .alnChar hdigit hsep hc h
  | alnToIso hc hsep => exact .alnToIso hc hsep h
  | isoLetter haln hc => exact .isoLetter haln hc h
  | isoPunct haln hdigit hsep hupper hlower hc => exact .isoPunct haln hdigit hsep hupper hlower hc h
  | alpLetter hc => exact .alpLetter hc h
  | alpDigit hc => exact .alpDigit hc h
  | alpEnd hc => exact .alpEnd hc h

/-- The steps of the machine and the rules are the same. -/
theorem encodes_cons_iff : Encodes p m (c :: rest) bits md ↔
    ∃ e bits', compactStep p m c rest = .ok e ∧ bits = e.bits ++ bits' ∧
      Encodes p e.mode ((c :: rest).drop e.taken) bits' md := by
  refine ⟨exists_compactStep_of_encodes, ?_⟩
  rintro ⟨e, bits', hstep, rfl, h⟩
  exact (stepRule_of_compactStep hstep).encodes h

theorem encodes_nil_iff : Encodes p m [] bits md ↔ bits = [] ∧ md = m := by
  refine ⟨fun h => ?_, ?_⟩
  · cases h
    exact ⟨rfl, rfl⟩
  · rintro ⟨rfl, rfl⟩
    exact .done md

/-- No mode leads into ALPHA-only. -/
theorem StepRule.mode_of_alp (hrule : StepRule p c rest m e) (h : e.mode = .alp) : m = .alp := by
  cases hrule with
  | alpLetter | alpDigit => rfl
  | digit hm => exact h
  | _ => exact nomatch h

/-! Progress (R298): at most two latches come before a character is taken. -/

/-- A bound on the steps up to and including the one that takes the next character. -/
def turnsDue (p : Params) : DcMode → List Char8 → Nat
  | .num, cs => if numericAhead cs then 1 else 3
  | .aln, cs => if numericAhead cs = true ∨ alnRun p.dcCodes cs = 0 then 2 else 1
  | .iso, cs => if numericAhead cs = true ∨ p.dcIso2AlnRun ≤ alnRun p.dcCodes cs then 2 else 1
  | .alp, _ => 1

theorem turnsDue_bounds (p : Params) (m : DcMode) (cs : List Char8) : 1 ≤ turnsDue p m cs ∧ turnsDue p m cs ≤ 3 := by
  cases m with
  | alp => exact ⟨le_rfl, Nat.le_add_left 1 2⟩
  | num | aln | iso =>
    simp only [turnsDue]
    split <;> decide

/-- A latch leaves fewer steps due. -/
theorem StepRule.turnsDue_lt (hrun : 1 ≤ p.dcIso2AlnRun) (hrule : StepRule p c rest m e) (h : e.taken = 0) :
    turnsDue p e.mode (c :: rest) < turnsDue p m (c :: rest) := by
  cases hrule with
  | numToAln hlatch =>
    have hahead := mt numericAhead_iff.mp (not_digitsAhead_of_numLatches hlatch)
    simp only [turnsDue, if_neg hahead]
    split <;> decide
  | toNum hm hahead =>
    obtain rfl | rfl := hm <;> simp [turnsDue, numericAhead_iff.mpr hahead]
  | isoToAln hahead haln =>
    have hrow := alnAhead_iff.mp haln
    simp [turnsDue, mt numericAhead_iff.mp hahead, hrow, show alnRun p.dcCodes (c :: rest) ≠ 0 by omega]
  | alnToIso hc hsep =>
    have hahead := mt numericAhead_iff.mp (not_digitsAhead_of_isAlnChar_eq_false (rest := rest) hc)
    have hnone : alnRun p.dcCodes (c :: rest) = 0 := alnRun_eq_zero hc
    simp [turnsDue, hahead, hnone, show p.dcIso2AlnRun ≠ 0 by omega]
  | _ => exact nomatch h

/-- A bound on the steps to the end: three for each character, and those due for the next one. -/
def turnsNeeded (p : Params) (m : DcMode) : List Char8 → Nat
  | [] => 0
  | c :: rest => 3 * rest.length + turnsDue p m (c :: rest)

theorem turnsNeeded_le (p : Params) (m : DcMode) (cs : List Char8) : turnsNeeded p m cs ≤ 3 * cs.length := by
  cases cs with
  | nil => exact le_rfl
  | cons c rest =>
    have hdue := (turnsDue_bounds p m (c :: rest)).2
    rw [turnsNeeded, List.length_cons]
    omega

/-- Every step brings the end nearer (R298). -/
theorem StepRule.turnsNeeded_lt (hrun : 1 ≤ p.dcIso2AlnRun) (hrule : StepRule p c rest m e) :
    turnsNeeded p e.mode ((c :: rest).drop e.taken) < turnsNeeded p m (c :: rest) := by
  cases htaken : e.taken with
  | zero => exact Nat.add_lt_add_left (hrule.turnsDue_lt hrun htaken) _
  | succ n =>
    have hleft := turnsNeeded_le p e.mode (rest.drop n)
    have hdue := (turnsDue_bounds p m (c :: rest)).1
    rw [List.length_drop] at hleft
    rw [List.drop_succ_cons, turnsNeeded]
    omega

/-! Runs. -/

theorem compactRun_nil (turns : Nat) : compactRun p turns m [] acc = .ok { bits := acc, mode := m, left := [] } := by
  cases turns <;> rfl

theorem compactRun_of_ok (h : compactStep p m c rest = .ok e) :
    compactRun p (turns + 1) m (c :: rest) acc =
      compactRun p turns e.mode ((c :: rest).drop e.taken) (acc ++ e.bits) := by
  rw [compactRun, h]

theorem compactRun_of_error {k : ErrorKind} (h : compactStep p m c rest = .error k) :
    compactRun p (turns + 1) m (c :: rest) acc = .error k := by
  rw [compactRun, h]

/-- With enough turns a run that does not fail leaves no character, and its bits are those of a derivation. -/
theorem compactRun_ok_iff (hrun : 1 ≤ p.dcIso2AlnRun) : ∀ {turns : Nat} {m : DcMode} {cs : List Char8}
    {acc : List Bool}, turnsNeeded p m cs ≤ turns →
    (compactRun p turns m cs acc = .ok r ↔
      r.left = [] ∧ ∃ bits, r.bits = acc ++ bits ∧ Encodes p m cs bits r.mode)
  | turns, m, [], acc, _ => by
    obtain ⟨rbits, rmode, rleft⟩ := r
    rw [compactRun_nil, Except.ok.injEq, Compacted.mk.injEq]
    simp only [encodes_nil_iff]
    constructor
    · rintro ⟨rfl, rfl, rfl⟩
      exact ⟨rfl, [], (List.append_nil _).symm, rfl, rfl⟩
    · rintro ⟨rfl, bits, rfl, rfl, rfl⟩
      exact ⟨(List.append_nil _).symm, rfl, rfl⟩
  | 0, m, c :: rest, acc, hturns => by
    have hdue := (turnsDue_bounds p m (c :: rest)).1
    rw [turnsNeeded] at hturns
    omega
  | turns + 1, m, c :: rest, acc, hturns => by
    simp only [encodes_cons_iff]
    cases hstep : compactStep p m c rest with
    | error k =>
      rw [compactRun_of_error hstep]
      exact ⟨nofun, fun ⟨_, _, _, _, _, hok, _⟩ => nomatch hok⟩
    | ok e =>
      have hless := (stepRule_of_compactStep hstep).turnsNeeded_lt hrun
      rw [compactRun_of_ok hstep, compactRun_ok_iff hrun (by omega)]
      constructor
      · rintro ⟨hleft, bits, hbits, h⟩
        exact ⟨hleft, e.bits ++ bits, by rw [hbits, List.append_assoc], e, bits, rfl, rfl, h⟩
      · rintro ⟨hleft, _, hbits, e', bits, hok, rfl, h⟩
        obtain rfl := Except.ok.inj hok
        exact ⟨hleft, bits, by rw [hbits, List.append_assoc], h⟩

theorem compactRun_error {k : ErrorKind} : ∀ {turns : Nat} {m : DcMode} {cs : List Char8} {acc : List Bool},
    compactRun p turns m cs acc = .error k →
      k = .invalidCharacter ∧ (m = .alp ∨ ∃ c ∈ cs, isoEncodable p.dcCodes c = false)
  | turns, m, [], acc, h => nomatch (compactRun_nil turns).symm.trans h
  | turns + 1, m, c :: rest, acc, h => by
    cases hstep : compactStep p m c rest with
    | error k' =>
      obtain rfl := Except.error.inj ((compactRun_of_error hstep).symm.trans h)
      obtain ⟨hk, hwhy⟩ := compactStep_error hstep
      exact ⟨hk, hwhy.imp_right fun hc => ⟨c, List.mem_cons_self, hc⟩⟩
    | ok e =>
      rw [compactRun_of_ok hstep] at h
      obtain ⟨hk, hwhy⟩ := compactRun_error h
      refine ⟨hk, hwhy.imp (fun halp => ?_) fun ⟨c', hc', hbad⟩ => ⟨c', List.mem_of_mem_drop hc', hbad⟩⟩
      exact (stepRule_of_compactStep hstep).mode_of_alp halp

/-! The whole machine. -/

theorem compact_ok_iff (hrun : 1 ≤ p.dcIso2AlnRun) :
    compact p md cs = .ok r ↔ r.left = [] ∧ Encodes p md cs r.bits r.mode := by
  have hturns : turnsNeeded p md cs ≤ 3 * cs.length + 3 := (turnsNeeded_le p md cs).trans (Nat.le_add_right _ _)
  rw [compact, compactRun_ok_iff hrun hturns]
  simp

theorem compact_of_encodes (hrun : 1 ≤ p.dcIso2AlnRun) (h : Encodes p m cs bits md) :
    compact p m cs = .ok { bits := bits, mode := md, left := [] } := (compact_ok_iff hrun).mpr ⟨rfl, h⟩

theorem compact_of_not_encodes (hrun : 1 ≤ p.dcIso2AlnRun) (h : ¬∃ bits md', Encodes p md cs bits md') :
    compact p md cs = .error .invalidCharacter := by
  cases hc : compact p md cs with
  | ok r => exact absurd ⟨r.bits, r.mode, ((compact_ok_iff hrun).mp hc).2⟩ h
  | error k => rw [(compactRun_error hc).1]

end Sys2Proof.Machine
end

section
/-! How many bits the compactor emits: the width of each code bounds a step, and the number of steps a run. -/

namespace Sys2Proof.Machine

variable {p : Params} {m : DcMode} {c : Char8} {rest : List Char8} {e : Emit} {r : Compacted}

theorem codeBits_length {w : Nat} (v : BitVec w) : (codeBits v).length = w := msbBits_length _ _

theorem alphabetCode_length {w n : Nat} (table : Vector (BitVec w) n) (first : Nat) (c : Char8) :
    (alphabetCode table first c).length = w := codeBits_length _

theorem alnBits_length (d : DcCodes) (c : Char8) : (d.alnBits c).length = 6 := by
  rw [DcCodes.alnBits]
  split
  · exact codeBits_length _
  · exact alphabetCode_length _ _ c

theorem isoLetterBits_length (d : DcCodes) (c : Char8) : (d.isoLetterBits c).length = 7 := by
  rw [DcCodes.isoLetterBits]
  split <;> exact alphabetCode_length _ _ c

/-- No code is longer than 8 bits, but for the latch into NUMERIC, whose width is a parameter. -/
theorem StepRule.bits_length_le (hrule : StepRule p c rest m e) : e.bits.length ≤ 8 + p.dcCodes.toNumW := by
  cases hrule with
  | pair | lastDigit | alpDigit => exact (msbBits_length _ _).trans_le (by omega)
  | toNum => exact (msbBits_length _ _).trans_le (by omega)
  | numToAln | isoToAln | sep | alnToIso | alpEnd => exact (codeBits_length _).trans_le (by omega)
  | digit | alpLetter => exact (alphabetCode_length _ _ c).trans_le (by omega)
  | alnChar => exact (alnBits_length _ c).trans_le (by omega)
  | isoLetter => exact (isoLetterBits_length _ c).trans_le (by omega)
  | isoPunct => exact (codeBits_length _).trans_le (by omega)

theorem compactRun_bits_length_le : ∀ {turns : Nat} {m : DcMode} {cs : List Char8} {acc : List Bool},
    compactRun p turns m cs acc = .ok r → r.bits.length ≤ acc.length + (8 + p.dcCodes.toNumW) * turns
  | turns, m, [], acc, h => by
    obtain rfl := Except.ok.inj ((compactRun_nil turns).symm.trans h)
    exact Nat.le_add_right _ _
  | 0, m, c :: rest, acc, h => by
    obtain rfl := Except.ok.inj h
    exact Nat.le_add_right _ _
  | turns + 1, m, c :: rest, acc, h => by
    cases hstep : compactStep p m c rest with
    | error k => exact nomatch (compactRun_of_error hstep).symm.trans h
    | ok e =>
      have hwidth := (stepRule_of_compactStep hstep).bits_length_le
      have ih := compactRun_bits_length_le ((compactRun_of_ok hstep).symm.trans h)
      rw [List.length_append] at ih
      rw [Nat.mul_succ]
      omega

theorem compact_bits_length_le {cs : List Char8} (h : compact p m cs = .ok r) :
    r.bits.length ≤ (8 + p.dcCodes.toNumW) * (3 * cs.length + 3) := by
  have := compactRun_bits_length_le h
  rwa [List.length_nil, Nat.zero_add] at this

/-- From NUMERIC, ALPHANUMERIC or ISO no string of characters that ISO mode encodes fails. -/
theorem exists_compact_of_isoEncodable {cs : List Char8} (hm : m ≠ .alp)
    (hcs : ∀ c ∈ cs, isoEncodable p.dcCodes c = true) : ∃ r, compact p m cs = .ok r := by
  cases h : compact p m cs with
  | ok r => exact ⟨r, rfl⟩
  | error k =>
    obtain halp | ⟨c, hc, hbad⟩ := (compactRun_error h).2
    · exact absurd halp hm
    · exact absurd ((hcs c hc).symm.trans hbad) (by decide)

end Sys2Proof.Machine
end

section
/-! The command `DC.ENC` (R299, R300): one rule for each outcome, and the obligations about it. -/

namespace Sys2Proof.Machine

variable {s : State} {ra : RegNum} {src dst : Ix} {md md' : DcMode} {sym : Symbology} {bits : List Bool}
  {e : Compacted}

/-! Appending to the stream (R131, R300). -/

/-- The state after an encode: the bits behind those of the stream, and the mode. -/
def State.encoded (s : State) (dst : Ix) (bits : List Bool) (md : DcMode) : State :=
  (s.setB dst ((s.getB dst).withBits ((s.getB dst).bits ++ bits))).setMode md

theorem State.getB_encoded_succeed_bits :
    ((s.encoded dst bits md).succeed.getB dst).bits = (s.getB dst).bits ++ bits := by
  rw [State.getB_succeed, State.encoded, State.getB_setMode, State.getB_setB_same, withBits_bits]

theorem onlyBMode_encoded : OnlyBMode s (s.encoded dst bits md).succeed dst :=
  ⟨rfl, fun q hq => s.getB_setB_other dst q _ hq⟩

/-- R300 on top of R131: both tests are of the whole stream. -/
theorem dcAppend_eq (s : State) (dst : Ix) (sym : Symbology) (e : Compacted) :
    dcAppend s dst sym e =
      if s.cfg.bsMaxBits < ((s.getB dst).bits ++ e.bits).length then .error .lengthExceeded
      else if sym = .dbe ∧ 252 < ((s.getB dst).bits ++ e.bits).length then .error .lengthExceeded
      else .ok (s.encoded dst e.bits e.mode) := by
  rw [dcAppend, grown_eq]
  by_cases hlong : s.cfg.bsMaxBits < ((s.getB dst).bits ++ e.bits).length
  · rw [if_pos hlong, if_pos hlong]
  · rw [if_neg hlong, if_neg hlong]
    rfl

/-! The outcomes. -/

theorem dcEnc_fails_outOfRange (h : (s.getC src).length < s.num ra) :
    FailsWith (.dcEnc ra src dst md sym) s .outOfRange := failsWith_of_error rfl (if_pos h)

theorem dcEnc_fails_of_compact {k : ErrorKind} (hin : s.num ra ≤ (s.getC src).length)
    (h : compact s.cfg md ((s.getC src).drop (s.num ra)) = .error k) : FailsWith (.dcEnc ra src dst md sym) s k :=
  failsWith_of_error rfl <| by rw [if_neg (Nat.not_lt.mpr hin), h]

/-- When the characters are encoded, the tests of the length decide. -/
theorem exec_dcEnc_of_compact (hin : s.num ra ≤ (s.getC src).length)
    (h : compact s.cfg md ((s.getC src).drop (s.num ra)) = .ok e) (sym : Symbology) :
    exec (.dcEnc ra src dst md sym) s = finish s (.dcEnc ra src dst md sym) (dcAppend s dst sym e) := by
  rw [exec, execDcEnc, if_neg (Nat.not_lt.mpr hin), h]

theorem dcEnc_fails_lengthExceeded (hin : s.num ra ≤ (s.getC src).length)
    (h : compact s.cfg md ((s.getC src).drop (s.num ra)) = .ok e)
    (hlong : s.cfg.bsMaxBits < ((s.getB dst).bits ++ e.bits).length) :
    FailsWith (.dcEnc ra src dst md sym) s .lengthExceeded :=
  failsWith_of_error (exec_dcEnc_of_compact hin h sym) <| by rw [dcAppend_eq, if_pos hlong]

theorem exec_dcEnc (hin : s.num ra ≤ (s.getC src).length)
    (h : compact s.cfg md ((s.getC src).drop (s.num ra)) = .ok e)
    (hroom : (s.getB dst).bits.length + e.bits.length ≤ s.cfg.bsMaxBits) :
    exec (.dcEnc ra src dst md .cc) s = .next (s.encoded dst e.bits e.mode).succeed :=
  exec_eq_of_ok (exec_dcEnc_of_compact hin h .cc) <| by
    rw [dcAppend_eq, if_neg (by rwa [List.length_append, Nat.not_lt])]
    rfl

/-- The symbology has a say only in an encode that the other tests let pass. -/
theorem dcEnc_outcome (s : State) (ra : RegNum) (src dst : Ix) (md : DcMode) :
    (∃ k, ∀ sym, FailsWith (.dcEnc ra src dst md sym) s k) ∨
      ∃ e : Compacted, ∀ sym, exec (.dcEnc ra src dst md sym) s = finish s (.dcEnc ra src dst md sym)
        (if sym = .dbe ∧ 252 < ((s.getB dst).bits ++ e.bits).length then .error .lengthExceeded
          else .ok (s.encoded dst e.bits e.mode)) := by
  by_cases hin : s.num ra ≤ (s.getC src).length
  · cases h : compact s.cfg md ((s.getC src).drop (s.num ra)) with
    | error k => exact .inl ⟨k, fun sym => dcEnc_fails_of_compact hin h⟩
    | ok e =>
      by_cases hlong : s.cfg.bsMaxBits < ((s.getB dst).bits ++ e.bits).length
      · exact .inl ⟨_, fun sym => dcEnc_fails_lengthExceeded hin h hlong⟩
      · refine .inr ⟨e, fun sym => ?_⟩
        rw [exec_dcEnc_of_compact hin h, dcAppend_eq, if_neg hlong]
  · exact .inl ⟨_, fun sym => dcEnc_fails_outOfRange (Nat.not_le.mp hin)⟩

/-! Failures determine their kind. -/

theorem failStatus_injective : Function.Injective failStatus := by
  have hkind : Function.LeftInverse (fun w : Word => ErrorKind.ofNat (w.toNat - 1)) failStatus := fun k => by
    cases k <;> rfl
  exact hkind.injective

theorem FailsWith.st_eq {i : Instr} {k : ErrorKind} {t : State} (h : FailsWith i s k) (hexec : exec i s = .next t) :
    t.st = failStatus k := by
  obtain rfl := Host.Outcome.next.inj (h.symm.trans hexec)
  rfl

theorem FailsWith.kind_unique {i : Instr} {k k' : ErrorKind} (h : FailsWith i s k) (h' : FailsWith i s k') : k = k' :=
  failStatus_injective (h'.st_eq h)

/-! The obligations. -/

/-- Settles O51: a derivation of the rules is a run of the machine, and without one the run fails; the tests of R299
follow in their order. -/
theorem encodeFollowsRules : Obligations.EncodeFollowsRules := by
  refine fun s ra src dst md sym hrun => ⟨dcEnc_fails_outOfRange, fun hin => ⟨fun hnone => ?_, fun bits md' henc => ?_⟩⟩
  · exact dcEnc_fails_of_compact hin (compact_of_not_encodes hrun hnone)
  · have hcompact := compact_of_encodes hrun henc
    refine ⟨fun hlong => ?_, fun hroom => ?_⟩
    · exact dcEnc_fails_lengthExceeded hin hcompact (by rwa [List.length_append])
    · exact ⟨_, exec_dcEnc hin hcompact hroom, onlyBMode_encoded, State.getB_encoded_succeed_bits, rfl⟩

/-- Settles O52: every step brings the end nearer, and a step fails only on a character ISO mode does not encode; the
stream has room for the widest code at each turn. -/
theorem encodeReachesEnd : Obligations.EncodeReachesEnd := by
  refine fun s ra src dst md hrun => ⟨fun cs r h => ((compact_ok_iff hrun).mp h).1, fun hmd hin hcs hroom => ?_⟩
  obtain ⟨r, hr⟩ := exists_compact_of_isoEncodable hmd hcs
  have hlen := compact_bits_length_le hr
  rw [List.length_drop] at hlen
  exact ⟨_, r.bits, exec_dcEnc hin hr (by omega), onlyBMode_encoded, State.getB_encoded_succeed_bits, hlen,
    ((compact_ok_iff hrun).mp hr).2⟩

/-- Settles O54: the selector is looked at last, and an encode that fails before does so under both selectors. -/
theorem dataBarCap : Obligations.DataBarCap := by
  intro s ra src dst md
  obtain ⟨k, hfail⟩ | ⟨e, hexec⟩ := dcEnc_outcome s ra src dst md
  · refine ⟨fun t ht hst => absurd (((hfail .cc).st_eq ht).symm.trans hst) (failStatus_ne_zero k), fun k' hk' => ?_⟩
    exact hk'.kind_unique (hfail .cc) ▸ hfail .dbe
  · have hcc : exec (.dcEnc ra src dst md .cc) s = .next (s.encoded dst e.bits e.mode).succeed :=
      exec_eq_of_ok (hexec .cc) (if_neg fun h => nomatch h.1)
    refine ⟨fun t ht _ => ?_, fun k hk => absurd (hk.st_eq hcc).symm (failStatus_ne_zero k)⟩
    obtain rfl := Host.Outcome.next.inj (hcc.symm.trans ht)
    rw [State.getB_encoded_succeed_bits]
    exact ⟨fun hfits => exec_eq_of_ok (hexec .dbe) (if_neg fun h => Nat.not_lt.mpr hfits h.2),
      fun hlong => failsWith_of_error (hexec .dbe) (if_pos ⟨rfl, hlong⟩)⟩

end Sys2Proof.Machine
end

section
/-! What the plain strings of each mode become (R294 to R297) with the default codes (R303 to R305): derivations of the
rules, character by character. -/

namespace Sys2Proof.Machine

variable {s : State} {ra : RegNum} {src dst : Ix} {p : Params} {m md md' : DcMode} {c : Char8} {rest cs : List Char8}
  {bits : List Bool}

/-! NUMERIC. -/

theorem not_pair_of_isDigit {a b : Char8} (ha : isDigit a = true) : ¬(isSep a = true ∧ isSep b = true) :=
  fun ⟨hsep, _⟩ => Bool.false_ne_true ((isSep_eq_false_of_isDigit ha).symm.trans hsep)

/-- Two digits are a pair. -/
theorem Encodes.digitPair {a b : Char8} (ha : isDigit a = true) (hb : isDigit b = true)
    (h : Encodes p .num rest bits md) :
    Encodes p .num (a :: b :: rest) (msbBits (dval a * 11 + dval b + 8) 7 ++ bits) md := by
  have hpair := Encodes.pair (isPairChar_iff.mpr (.inl ha)) (isPairChar_iff.mpr (.inl hb)) (not_pair_of_isDigit ha) h
  rwa [isSep_eq_false_of_isDigit ha, isSep_eq_false_of_isDigit hb] at hpair

/-- A digit and the separator are a pair. -/
theorem encodes_digit_sep (hc : isDigit c = true) : Encodes p .num [c, 0x1D] (msbBits (dval c * 11 + 18) 7) .num := by
  have hpair := Encodes.pair (b := 0x1D) (isPairChar_iff.mpr (.inl hc)) rfl (not_pair_of_isDigit hc)
    (.done (p := p) .num)
  rwa [isSep_eq_false_of_isDigit hc, List.append_nil] at hpair

/-- The separator and a digit are a pair. -/
theorem encodes_sep_digit (hc : isDigit c = true) : Encodes p .num [0x1D, c] (msbBits (dval c + 118) 7) .num := by
  have hnot : ¬(isSep (0x1D : Char8) = true ∧ isSep c = true) := fun h => not_pair_of_isDigit hc h.symm
  have hpair := Encodes.pair rfl (isPairChar_iff.mpr (.inl hc)) hnot (.done (p := p) .num)
  rw [isSep_eq_false_of_isDigit hc, List.append_nil] at hpair
  rwa [show dval c + 118 = 10 * 11 + dval c + 8 by omega]

/-- An even number of digits goes pair by pair, whatever follows. -/
theorem encodes_numericPairs (h : Encodes p .num rest bits md) : ∀ {n : Nat} {ds : List Char8}, ds.length = 2 * n →
    (∀ c ∈ ds, isDigit c = true) → Encodes p .num (ds ++ rest) (numericPairs ds ++ bits) md
  | 0, [], _, _ => h
  | n + 1, a :: b :: ds, hlen, hds => by
    have ih := encodes_numericPairs h (n := n) (ds := ds) (by simp at hlen; omega) fun c hc => hds c (by simp [hc])
    rw [numericPairs, List.append_assoc]
    exact .digitPair (hds a (by simp)) (hds b (by simp)) ih
  | n + 1, [_], hlen, _ => by simp at hlen; omega

theorem numericPairs_length : ∀ {n : Nat} {ds : List Char8}, ds.length = 2 * n → (numericPairs ds).length = 7 * n
  | 0, [], _ => rfl
  | n + 1, a :: b :: ds, hlen => by
    rw [numericPairs, List.length_append, msbBits_length, numericPairs_length (n := n) (by simp at hlen; omega)]
    omega
  | n + 1, [_], hlen => by simp at hlen; omega

/-! One character, one code. -/

/-- When a mode takes each character of a string by itself, the string becomes their codes in order, whatever
follows. -/
theorem encodes_flatMap {code : Char8 → List Bool}
    (hcode : ∀ c ∈ cs, ∀ {rest bits}, Encodes p m rest bits md → Encodes p m (c :: rest) (code c ++ bits) md)
    (h : Encodes p m rest bits md) : Encodes p m (cs ++ rest) (cs.flatMap code ++ bits) md := by
  induction cs with
  | nil => exact h
  | cons c cs ih =>
    rw [List.flatMap_cons, List.append_assoc]
    exact hcode c List.mem_cons_self (ih fun c' hc' => hcode c' (List.mem_cons_of_mem c hc'))

theorem encodes_flatMap_self {code : Char8 → List Bool}
    (hcode : ∀ c ∈ cs, ∀ {rest bits}, Encodes p m rest bits md → Encodes p m (c :: rest) (code c ++ bits) md)
    (hdone : Encodes p m [] [] md) : Encodes p m cs (cs.flatMap code) md := by
  have henc := encodes_flatMap hcode hdone
  rwa [List.append_nil, List.append_nil] at henc

theorem flatMap_length_le {code : Char8 → List Bool} {w : Nat} (hcode : ∀ c, (code c).length ≤ w) :
    ∀ cs : List Char8, (cs.flatMap code).length ≤ w * cs.length
  | [] => Nat.zero_le _
  | c :: cs => by
    have ih := flatMap_length_le hcode cs
    have hc := hcode c
    rw [List.flatMap_cons, List.length_append, List.length_cons, Nat.mul_succ]
    omega

/-! ALPHANUMERIC, ISO and ALPHA-only. -/

/-- The code of a letter or a punctuation character in ALPHANUMERIC, in 6 bits (R303). -/
theorem defaultDcCodes_alnBits {c : Char8} (hc : isUpper c = true ∨ defaultDcCodes.isAlnPunct c = true) :
    defaultDcCodes.alnBits c =
      msbBits (if isUpper c then c.toNat - 33 else if c = 0x2A then 58 else c.toNat + 15) 6 := by
  by_cases hupper : isUpper c = true
  · rw [if_pos hupper, defaultDcCodes_alnBits_of_isUpper hupper]
  · rw [if_neg hupper, defaultDcCodes_alnBits_of_isAlnPunct (hc.resolve_left hupper)]
    rfl

theorem defaultDcCodes_isAlnPunct_classes {c : Char8} (h : defaultDcCodes.isAlnPunct c = true) :
    isDigit c = false ∧ isSep c = false := by
  rw [defaultDcCodes_isAlnPunct_iff] at h
  rw [Bool.eq_false_iff, Bool.eq_false_iff, ne_eq, ne_eq, isDigit_iff, isSep_iff]
  bv_omega

theorem Encodes.defaultAlnChar (hp : p.dcCodes = defaultDcCodes)
    (hc : isUpper c = true ∨ defaultDcCodes.isAlnPunct c = true) (h : Encodes p .aln rest bits md) :
    Encodes p .aln (c :: rest)
      (msbBits (if isUpper c then c.toNat - 33 else if c = 0x2A then 58 else c.toNat + 15) 6 ++ bits) md := by
  have hdigit : isDigit c = false :=
    hc.elim isDigit_eq_false_of_isUpper fun hpunct => (defaultDcCodes_isAlnPunct_classes hpunct).1
  have hsep : isSep c = false :=
    hc.elim isSep_eq_false_of_isUpper fun hpunct => (defaultDcCodes_isAlnPunct_classes hpunct).2
  rw [← defaultDcCodes_alnBits hc, ← hp]
  exact .alnChar hdigit hsep (hp ▸ hc) h

theorem defaultDcCodes_isAlnChar_of_isLower {c : Char8} (h : isLower c = true) :
    defaultDcCodes.isAlnChar c = false := by
  rw [Bool.eq_false_iff, ne_eq, isAlnChar_iff, isDigit_iff, isUpper_iff, defaultDcCodes_isAlnPunct_iff]
  rw [isLower_iff] at h
  bv_omega

theorem Encodes.defaultIsoLower (hp : p.dcCodes = defaultDcCodes) (hrun : 1 ≤ p.dcIso2AlnRun)
    (hc : isLower c = true) (h : Encodes p .iso rest bits md) :
    Encodes p .iso (c :: rest) (msbBits (c.toNat - 7) 7 ++ bits) md := by
  have hnot : p.dcCodes.isAlnChar c = false := hp ▸ defaultDcCodes_isAlnChar_of_isLower hc
  rw [← defaultDcCodes_isoLetterBits_of_isLower hc, ← hp]
  exact .isoLetter (not_alnAhead_of_isAlnChar_eq_false hrun hnot) (.inr hc) h

/-- The code of a letter or a digit in ALPHA-only (R297, R305). -/
def alpCode (c : Char8) : List Bool := if isUpper c then msbBits (c.toNat - 65) 5 else msbBits (c.toNat + 4) 6

theorem alpCode_length_le (c : Char8) : (alpCode c).length ≤ 6 := by
  rw [alpCode]
  split <;> rw [msbBits_length]
  decide

theorem Encodes.defaultAlpChar (hp : p.dcCodes = defaultDcCodes) (hc : isUpper c = true ∨ isDigit c = true)
    (h : Encodes p .alp rest bits md) : Encodes p .alp (c :: rest) (alpCode c ++ bits) md := by
  by_cases hupper : isUpper c = true
  · rw [alpCode, if_pos hupper, ← defaultDcCodes_alpLetterBits hupper, ← hp]
    exact .alpLetter hupper h
  · rw [alpCode, if_neg hupper]
    exact .alpDigit (hc.resolve_left hupper) h

/-! The command. -/

/-- From the first character on, a derivation whose bits the stream has room for is what `DC.ENC` does. -/
theorem exists_exec_dcEnc_of_encodes (hra : s.getX ra = 0) (hrun : 1 ≤ s.cfg.dcIso2AlnRun)
    (h : Encodes s.cfg md (s.getC src) bits md') (hroom : (s.getB dst).bits.length + bits.length ≤ s.cfg.bsMaxBits) :
    ∃ t, exec (.dcEnc ra src dst md .cc) s = .next t ∧ OnlyBMode s t dst ∧ t.dcmode = md' ∧
      (t.getB dst).bits = (s.getB dst).bits ++ bits := by
  have hnum : s.num ra = 0 := by rw [State.num, hra]; rfl
  have hcompact : compact s.cfg md ((s.getC src).drop (s.num ra)) = .ok { bits := bits, mode := md', left := [] } := by
    rw [hnum, List.drop_zero]
    exact compact_of_encodes hrun h
  exact ⟨_, exec_dcEnc (hnum ▸ Nat.zero_le _) hcompact hroom, onlyBMode_encoded, rfl,
    State.getB_encoded_succeed_bits⟩

/-- Settles O53: each string has a derivation, by pairs in NUMERIC and character by character in the other modes. -/
theorem plainStringsEncode : Obligations.PlainStringsEncode := by
  refine fun s ra src dst hra hcodes hrun => ⟨fun n hlen hds hroom => ?pairs, fun n ds c hsrc hlen hds hroom => ?lone,
    fun c hc hroom => ⟨fun hsrc => ?digitSep, fun hsrc => ?sepDigit⟩, fun hcs hroom => ?aln, fun hcs hroom => ?iso,
    fun cs hcs hroom => ⟨fun hsrc => ?alp, fun hsrc => ?alpEnd⟩⟩
  case pairs =>
    have henc := encodes_numericPairs (.done (p := s.cfg) .num) hlen hds
    rw [List.append_nil, List.append_nil] at henc
    exact exists_exec_dcEnc_of_encodes hra hrun henc (by rwa [numericPairs_length hlen])
  case lone =>
    have henc := encodes_numericPairs (.lastDigit (p := s.cfg) (hds c (by simp))) hlen fun a ha => hds a (by simp [ha])
    rw [List.append_assoc]
    refine exists_exec_dcEnc_of_encodes hra hrun (hsrc ▸ henc) ?_
    rw [List.length_append, numericPairs_length hlen, msbBits_length]
    omega
  case digitSep => exact exists_exec_dcEnc_of_encodes hra hrun (hsrc ▸ encodes_digit_sep hc) (by rwa [msbBits_length])
  case sepDigit => exact exists_exec_dcEnc_of_encodes hra hrun (hsrc ▸ encodes_sep_digit hc) (by rwa [msbBits_length])
  case aln =>
    have henc := encodes_flatMap_self (fun c hc => Encodes.defaultAlnChar hcodes
      ((hcs c hc).imp_right defaultDcCodes_isAlnPunct_iff.mpr)) (.done (p := s.cfg) .aln)
    exact exists_exec_dcEnc_of_encodes hra hrun henc ((Nat.add_le_add_left
      (flatMap_length_le (fun c => (msbBits_length _ 6).le) _) _).trans hroom)
  case iso =>
    have henc := encodes_flatMap_self (fun c hc => Encodes.defaultIsoLower hcodes hrun (hcs c hc))
      (.done (p := s.cfg) .iso)
    exact exists_exec_dcEnc_of_encodes hra hrun henc ((Nat.add_le_add_left
      (flatMap_length_le (fun c => (msbBits_length _ 7).le) _) _).trans hroom)
  case alp =>
    subst hsrc
    have henc := encodes_flatMap_self (fun c hc => Encodes.defaultAlpChar hcodes (hcs c hc)) (.done (p := s.cfg) .alp)
    have hlen := flatMap_length_le alpCode_length_le (s.getC src)
    exact exists_exec_dcEnc_of_encodes (bits := (s.getC src).flatMap alpCode) hra hrun henc (by omega)
  case alpEnd =>
    have hend : Encodes s.cfg .alp [0x1D] [true, true, true, true, true] .num := by
      have := Encodes.alpEnd (p := s.cfg) (c := 0x1D) rfl (.done .num)
      rwa [hcodes] at this
    have henc := encodes_flatMap (fun c hc => Encodes.defaultAlpChar hcodes (hcs c hc)) hend
    have hlen := flatMap_length_le alpCode_length_le cs
    rw [List.append_assoc]
    refine exists_exec_dcEnc_of_encodes (bits := cs.flatMap alpCode ++ _) hra hrun (hsrc ▸ henc) ?_
    rw [List.length_append, show [true, true, true, true, true].length = 5 from rfl]
    omega

end Sys2Proof.Machine
end

section
/-! Composite sizing (R320 to R324): the smallest entry of a table that fits, and the thresholds of the level. -/

namespace Sys2Proof.Machine

variable {s : State} {ra rb : RegNum} {b : Ix} {wc : BitVec 2} {cm : CompositeMode} {table : List Nat} {n e : Nat}

/-! The smallest fit. -/

theorem smallestFit_some_iff : smallestFit table n = some e ↔
    (e ∈ table ∧ n ≤ e) ∧ ∀ f ∈ table, n ≤ f → e ≤ f := by
  rw [smallestFit, List.min?_eq_some_iff]
  simp only [List.mem_filter, decide_eq_true_iff, and_imp]

theorem smallestFit_none_iff : smallestFit table n = none ↔ ∀ f ∈ table, f < n := by
  rw [smallestFit, List.min?_eq_none_iff, List.filter_eq_nil_iff]
  simp only [decide_eq_true_iff, Nat.not_le]

/-- The entries of the tables (R322) fit a register. -/
theorem capacityTable_lt (h : e ∈ capacityTable cm wc) : e < 2 ^ 32 := by
  have hbound : ∀ cm wc, ∀ e ∈ capacityTable cm wc, e ≤ 1184 := by
    intro cm wc
    cases cm <;> fin_cases wc <;> decide
  exact (hbound cm wc e h).trans_lt (by decide)

/-! The level. -/

theorem eccLevel_bounds (w : Nat) : 2 ≤ eccLevel w ∧ eccLevel w ≤ 7 := by
  unfold eccLevel
  split_ifs <;> decide

/-- The level is at most `l` up to the threshold of `l`. -/
theorem eccLevel_le_iff {w l : Nat} (hlow : 2 ≤ l) (hhigh : l ≤ 6) :
    eccLevel w ≤ l ↔ w ≤ if l = 2 then 40 else 160 * 2 ^ (l - 3) := by
  unfold eccLevel
  interval_cases l <;> split_ifs <;> omega

/-! The commands. -/

theorem exec_dcTgt (hwc : wc.toNat < 3) (h : smallestFit (capacityTable cm wc) (s.getB b).bits.length = some e) :
    exec (.dcTgt ra b wc cm) s = .next (s.setX ra (natWord e)).succeed :=
  exec_eq_of_ok rfl <| by rw [wcOk, decide_eq_true hwc, h]; rfl

theorem dcTgt_fails_unsupportedConfiguration (hwc : wc.toNat < 3)
    (h : smallestFit (capacityTable cm wc) (s.getB b).bits.length = none) :
    FailsWith (.dcTgt ra b wc cm) s .unsupportedConfiguration :=
  failsWith_of_error rfl <| by rw [wcOk, decide_eq_true hwc, h]; rfl

theorem dcTgt_fails_illegalCommand (hwc : 3 ≤ wc.toNat) : FailsWith (.dcTgt ra b wc cm) s .illegalCommand :=
  failsWith_of_error rfl <| by rw [wcOk, decide_eq_false (Nat.not_lt.mpr hwc)]; rfl

theorem exists_onlyX_dcEccl (s : State) (ra rb : RegNum) :
    ∃ t, exec (.dcEccl ra rb) s = .next t ∧ (t.getX ra).toNat = eccLevel (s.num rb) ∧ OnlyX s t ra :=
  exists_onlyX_of_exec (exec_eq_of_ok rfl rfl)
    (natWord_toNat _ ((eccLevel_bounds _).2.trans_lt (by decide)))

/-- Settles O55: the target is the least of the entries that fit, and the level's thresholds are inclusive. -/
theorem targetAndLevel : Obligations.TargetAndLevel := by
  refine ⟨⟨rfl, rfl, rfl, rfl, rfl, rfl⟩, fun s ra rb b wc cm =>
    ⟨fun hwc ⟨e, he, hfits⟩ => ?target, fun hwc hnone => ?none, dcTgt_fails_illegalCommand, ?level⟩⟩
  case target =>
    cases h : smallestFit (capacityTable cm wc) (s.getB b).bits.length with
    | none => exact absurd (smallestFit_none_iff.mp h e he) (Nat.not_lt.mpr hfits)
    | some least =>
      obtain ⟨⟨hmem, hfit⟩, hleast⟩ := smallestFit_some_iff.mp h
      obtain ⟨t, hexec, hval, honly⟩ :=
        exists_onlyX_of_exec (exec_dcTgt (ra := ra) hwc h) (natWord_toNat _ (capacityTable_lt hmem))
      rw [← hval] at hmem hfit hleast
      exact ⟨t, hexec, honly, hmem, hfit, hleast⟩
  case none => exact dcTgt_fails_unsupportedConfiguration hwc (smallestFit_none_iff.mpr hnone)
  case level =>
    obtain ⟨t, hexec, hval, honly⟩ := exists_onlyX_dcEccl s ra rb
    refine ⟨t, hexec, honly, ?_⟩
    rw [hval]
    exact ⟨(eccLevel_bounds _).1, (eccLevel_bounds _).2, fun l => eccLevel_le_iff⟩

end Sys2Proof.Machine
end

section
/-! Padding and the mode (R325 to R327): the padded bits position by position, and the commands. -/

namespace Sys2Proof.Machine

variable {s : State} {ra : RegNum} {b : Ix} {m2 mode : DcMode} {bits : List Bool} {target p n : Nat} {d : DcCodes}

/-! The padded bits. -/

theorem codeBits_getElem? {w : Nat} (v : BitVec w) (h : p < w) : (codeBits v)[p]? = some (v.getLsbD (w - 1 - p)) := by
  rw [codeBits, msbBits_getElem? _ _ _ h, BitVec.testBit_toNat]

theorem padCode_length : padCode.length = 5 := rfl

theorem padCode_getElem? (h : p < 5) : padCode[p]? = some (decide (p % 5 = 2)) := by
  interval_cases p <;> rfl

/-- The pad code over and over has a 1 at every fifth position from the third on. -/
theorem getElem?_padCodes : ∀ {n p : Nat}, p < 5 * n →
    (List.replicate n padCode).flatten[p]? = some (decide (p % 5 = 2))
  | n + 1, p, h => by
    rw [List.replicate_succ, List.flatten_cons]
    by_cases hp : p < 5
    · rw [List.getElem?_append_left (by rwa [padCode_length]), padCode_getElem? hp]
    · rw [List.getElem?_append_right (by rw [padCode_length]; omega), padCode_length, getElem?_padCodes (by omega)]
      congr 2
      rw [eq_iff_iff]
      omega

theorem padCodes_length (n : Nat) : (List.replicate n padCode).flatten.length = 5 * n := by
  simp [padCode_length, Nat.mul_comm]

/-- The pad codes bring any length to at least the target. -/
theorem target_le_padCount (len target : Nat) : target ≤ len + 5 * padCount len target := by
  rw [padCount]
  omega

/-- What stands behind the data before the cut: the latch out of NUMERIC if due, then pad codes up to the target. -/
def padTail (d : DcCodes) (mode : DcMode) (len target : Nat) : List Bool :=
  if mode = .num then codeBits d.numToAln ++ (List.replicate (padCount (len + 4) target) padCode).flatten
  else (List.replicate (padCount len target) padCode).flatten

theorem padBits_eq (d : DcCodes) (mode : DcMode) (bits : List Bool) (target : Nat) :
    padBits d mode bits target = (bits ++ padTail d mode bits.length target).take target := by
  by_cases hmode : mode = .num
  · simp only [padBits, padTail, if_pos hmode, List.append_assoc, List.length_append, codeBits_length]
  · simp only [padBits, padTail, if_neg hmode]

theorem target_le_padTail_length (d : DcCodes) (mode : DcMode) (len target : Nat) :
    target ≤ len + (padTail d mode len target).length := by
  unfold padTail
  split
  · have := target_le_padCount (len + 4) target
    rw [List.length_append, codeBits_length, padCodes_length]
    omega
  · rw [padCodes_length]
    exact target_le_padCount len target

theorem padBits_length (d : DcCodes) (mode : DcMode) (bits : List Bool) (target : Nat) :
    (padBits d mode bits target).length = target := by
  rw [padBits_eq, List.length_take_of_le]
  rw [List.length_append]
  exact target_le_padTail_length d mode bits.length target

theorem getElem?_padBits_of_lt (h : p < bits.length) (hlen : bits.length ≤ target) :
    (padBits d mode bits target)[p]? = bits[p]? := by
  rw [padBits_eq, List.getElem?_take_of_lt (by omega), List.getElem?_append_left h]

theorem getElem?_padTail (h : bits.length + p < target) : (padTail d mode bits.length target)[p]? =
    some (if mode = .num then if p < 4 then d.numToAln.getLsbD (3 - p) else decide ((p - 4) % 5 = 2)
      else decide (p % 5 = 2)) := by
  unfold padTail
  by_cases hmode : mode = .num
  · rw [if_pos hmode, if_pos hmode]
    by_cases hp : p < 4
    · rw [if_pos hp, List.getElem?_append_left (by rwa [codeBits_length]), codeBits_getElem? _ hp]
    · have hcount := target_le_padCount (bits.length + 4) target
      rw [if_neg hp, List.getElem?_append_right (by rw [codeBits_length]; omega), codeBits_length,
        getElem?_padCodes (by omega)]
  · have hcount := target_le_padCount bits.length target
    rw [if_neg hmode, if_neg hmode, getElem?_padCodes (by omega)]

theorem getElem?_padBits_add (h : bits.length + p < target) : (padBits d mode bits target)[bits.length + p]? =
    some (if mode = .num then if p < 4 then d.numToAln.getLsbD (3 - p) else decide ((p - 4) % 5 = 2)
      else decide (p % 5 = 2)) := by
  rw [padBits_eq, List.getElem?_take_of_lt h, List.getElem?_append_right (Nat.le_add_right _ _),
    Nat.add_sub_cancel_left, getElem?_padTail h]

/-! The commands. -/

/-- The state after padding a stream that is shorter than the target (R325). -/
def State.padded (s : State) (b : Ix) (target : Nat) : State :=
  (s.setB b ((s.getB b).withBits (padBits s.cfg.dcCodes s.dcmode (s.getB b).bits target))).setMode
    (if s.dcmode = .num then .aln else s.dcmode)

theorem onlyBMode_padded : OnlyBMode s (s.padded b target).succeed b :=
  ⟨rfl, fun q hq => s.getB_setB_other b q _ hq⟩

theorem State.getB_padded_succeed_bits :
    ((s.padded b target).succeed.getB b).bits = padBits s.cfg.dcCodes s.dcmode (s.getB b).bits target := by
  rw [State.getB_succeed, State.padded, State.getB_setMode, State.getB_setB_same, withBits_bits]

theorem dcPad_fails_lengthExceeded (h : s.num ra < (s.getB b).bits.length ∨ s.cfg.bsMaxBits < s.num ra) :
    FailsWith (.dcPad ra b) s .lengthExceeded := failsWith_of_error rfl (if_pos h.symm)

theorem exec_dcPad_of_eq (h : (s.getB b).bits.length = s.num ra) (hmax : s.num ra ≤ s.cfg.bsMaxBits) :
    exec (.dcPad ra b) s = .next s.succeed :=
  exec_eq_of_ok rfl <| by rw [if_neg (by omega), if_pos h]

theorem exec_dcPad_of_lt (h : (s.getB b).bits.length < s.num ra) (hmax : s.num ra ≤ s.cfg.bsMaxBits) :
    exec (.dcPad ra b) s = .next (s.padded b (s.num ra)).succeed :=
  exec_eq_of_ok rfl <| by rw [if_neg (by omega), if_neg (by omega)]; rfl

/-- Settles O56: the padded bits are the data, then the latch and the pad codes, cut at the target. -/
theorem padToTargetAndMode : Obligations.PadToTargetAndMode := by
  refine fun s ra b m2 => ⟨dcPad_fails_lengthExceeded, fun h hmax => ⟨_, exec_dcPad_of_eq h hmax, rfl⟩,
    fun h hmax => ?pad, ?getm, ?setm⟩
  case pad =>
    refine ⟨_, exec_dcPad_of_lt h hmax, onlyBMode_padded, rfl, ?_⟩
    rw [State.getB_padded_succeed_bits]
    exact ⟨padBits_length .., fun p hp => getElem?_padBits_of_lt hp h.le, fun p hp => getElem?_padBits_add hp⟩
  case getm => exact ⟨_, exec_eq_of_ok rfl rfl, onlyX_setX ra _, s.getX_setX_same ra _⟩
  case setm =>
    refine ⟨_, exec_eq_of_ok rfl rfl, rfl, ?_⟩
    cases m2 <;> rfl

end Sys2Proof.Machine
end

section
/-! How a command ends (R110, R370, R372): a success writes `ST` and what the command's own write reaches, and neither `ECMD`
nor the host's list is in that reach. -/

namespace Sys2Proof.Machine

variable {s t : State} {i : Instr}

theorem Writes.ecmd_host (h : Writes s t) : t.ecmd = s.ecmd ∧ t.host = s.host := by
  induction h with
  | mode _ m ih => exact ih
  | _ => exact ⟨rfl, rfl⟩

theorem MoveResult.host (h : MoveResult s t) : t.host = s.host := by
  cases h with
  | write h | success h => exact h.ecmd_host.2
  | failure | clearEf | reset => rfl

/-- R110, R370: the two ways a command ends. -/
theorem exec_succeeds_or_fails (i : Instr) (s : State) : ∃ t, exec i s = .next t ∧
    ((t.st = 0 ∧ (i ≠ .srst → t.ecmd = s.ecmd) ∧ (i ≠ .srst → i ≠ .clrerr → t.ef = s.ef)) ∨
      ∃ k, FailsWith i s k) := by
  by_cases hclrerr : i = .clrerr
  · exact ⟨s.clearEf.succeed, by rw [hclrerr]; rfl, .inl ⟨rfl, fun _ => rfl, fun _ h => absurd hclrerr h⟩⟩
  by_cases hsrst : i = .srst
  · exact ⟨s.resetAll.succeed, by rw [hsrst]; rfl, .inl ⟨rfl, fun h => absurd hsrst h, fun h => absurd hsrst h⟩⟩
  obtain ⟨result, hexec, hwrites⟩ := exec_writes i s hclrerr hsrst
  cases result with
  | ok u =>
    have hu := hwrites u rfl
    exact ⟨u.succeed, hexec, .inl ⟨rfl, fun _ => hu.ecmd_host.1, fun _ _ => hu.status.2⟩⟩
  | error k => exact ⟨_, hexec, .inr ⟨k, failsWith_of_error hexec rfl⟩⟩

/-- R95, R370: a word ends as its command does, a word that is no command as a failure; `ECMD` is the word itself. -/
theorem runWord_succeeds_or_fails (w : Word) (s : State) :
    ∃ t, runWord w s = .next t ∧ (t.st = 0 ∨ ∃ k, t = s.raise k w) := by
  cases hdecode : decode w with
  | ok i =>
    rw [runWord_of_decode_ok hdecode]
    obtain ⟨t, hexec, ⟨hst, -⟩ | ⟨k, hfails⟩⟩ := exec_succeeds_or_fails i s
    · exact ⟨t, hexec, .inl hst⟩
    · refine ⟨_, hfails, .inr ⟨k, ?_⟩⟩
      rw [(encodeDecode w i hdecode).1, State.raise_eq]
  | error e => exact ⟨_, runWord_of_decode_error hdecode s, .inr ⟨_, rfl⟩⟩

/-- Settles O10: a command ends through the one success or the one failure, and the word of the command a word decodes to is
that word. -/
theorem everyCommandSucceedsOrFailsClosed : Obligations.EveryCommandSucceedsOrFailsClosed :=
  ⟨exec_succeeds_or_fails, runWord_succeeds_or_fails⟩

end Sys2Proof.Machine
end

section
/-! A list of command words runs to its end (R373). -/

namespace Sys2Proof.Machine

variable {s t : State}

theorem run_succ_of_step {n : Nat} (h : step s = .next t) :
    Host.Core.run core (n + 1) s = Host.Core.run core n t := by
  have hcore : core.step s = .next t := h
  simp only [Host.Core.run, hcore]

/-- A step that issues a word takes it off the host's list and answers a next state. -/
theorem exists_step_of_issue {w : Word} {rest : List HostMove} (h : s.host = .issue w :: rest) :
    ∃ t, step s = .next t ∧ t.host = rest := by
  obtain ⟨t, hrun, -⟩ := runWord_succeeds_or_fails w (s.takeMove rest)
  exact ⟨t, (step_of_host_cons h).trans hrun, (runWord_result hrun).host⟩

theorem run_words_completes : ∀ (ws : List Word) (s : State), s.host = ws.map .issue →
    ∃ t : State, Host.Core.run core ws.length s = .next t ∧ t.host = []
  | [], s, h => ⟨s, rfl, h⟩
  | w :: ws, s, h => by
    obtain ⟨u, hstep, hhost⟩ := exists_step_of_issue h
    obtain ⟨t, hrun, ht⟩ := run_words_completes ws u hhost
    exact ⟨t, (run_succ_of_step hstep).trans hrun, ht⟩

end Sys2Proof.Machine
end

section
/-! A failed command issued again (R370, R372, R373): no test of a command reads `ST`, `EF` or `ECMD`, so the test that failed
it fails it in the state the failure leaves, and that failure writes there what it wrote before. -/

namespace Sys2Proof.Machine

variable {s : State} {k : ErrorKind} {w : Word}

theorem State.raise_raise (s : State) (k : ErrorKind) (w : Word) : (s.raise k w).raise k w = s.raise k w := by
  simp only [State.raise_eq, BitVec.or_assoc, BitVec.or_self]

/-- Where the result `a` is an error, `b` is the same error. -/
def FailsAs (a b : Except ErrorKind State) : Prop := ∀ k, a = .error k → b = .error k

theorem FailsAs.refl (a : Except ErrorKind State) : FailsAs a a := fun _ h => h

theorem FailsAs.ok {t : State} {b : Except ErrorKind State} : FailsAs (.ok t) b := fun _ h => nomatch h

theorem FailsAs.error {k : ErrorKind} : FailsAs (.error k) (.error k) := .refl _

theorem FailsAs.ite {c : Prop} [Decidable c] {a a' b b' : Except ErrorKind State} (ha : FailsAs a a')
    (hb : FailsAs b b') : FailsAs (if c then a else b) (if c then a' else b') := by
  split
  · exact ha
  · exact hb

/-- The same test before two results. -/
theorem FailsAs.unless {c : Prop} [Decidable c] {k : ErrorKind} {a b : Except ErrorKind State} (h : FailsAs a b) :
    FailsAs (if c then .error k else a) (if c then .error k else b) := .ite .error h

/-! The shared operations. -/

theorem State.num_raise (s : State) (k : ErrorKind) (w : Word) (r : RegNum) : (s.raise k w).num r = s.num r := rfl

theorem State.bufLen_raise (s : State) (k : ErrorKind) (w : Word) (r : BufRef) :
    (s.raise k w).bufLen r = s.bufLen r := by cases r <;> rfl

theorem State.bufRead_raise (s : State) (k : ErrorKind) (w : Word) (r : BufRef) (n : Nat) :
    (s.raise k w).bufRead r n = s.bufRead r n := by cases r <;> rfl

theorem withBuf_failsAs {sp : BitVec 3} {f g : BufRef → Except ErrorKind State} (h : ∀ r, FailsAs (f r) (g r)) :
    FailsAs (withBuf sp f) (withBuf sp g) := by
  unfold withBuf
  split
  · exact h _
  · exact .error

theorem growTo_failsAs {b : Ix} {bits : List Bool} : FailsAs (growTo s b bits) (growTo (s.raise k w) b bits) := by
  rw [growTo_eq, growTo_eq]
  exact .unless .ok

theorem checksum_failsAs {ra : RegNum} {q : Ix} {legal : Char8 → Bool} {result : List Char8 → Word} :
    FailsAs (checksum s ra q legal result) (checksum (s.raise k w) ra q legal result) := .ite .ok .error

theorem readSym_failsAs {ra : RegNum} {v : Option Sym} :
    FailsAs (readSym s ra v) (readSym (s.raise k w) ra v) := by
  cases v with
  | some e => exact .ok
  | none => exact .error

theorem readRow_failsAs {ra rb : RegNum} {f : Row → Option Word} :
    FailsAs (readRow s ra rb f) (readRow (s.raise k w) ra rb f) := by
  rw [readRow_eq, readRow_eq, State.raise_rows, State.num_raise]
  split
  · exact .ok
  · exact .error

theorem rsEncode_failsAs {data : List Sym} : FailsAs (rsEncode s data) (rsEncode (s.raise k w) data) := by
  refine .ite ?_ .error
  rw [State.raise_rs]
  split
  · exact .ok
  · exact .error

theorem dcAppend_failsAs {dst : Ix} {sym : Symbology} {e : Compacted} :
    FailsAs (dcAppend s dst sym e) (dcAppend (s.raise k w) dst sym e) := by
  unfold dcAppend
  rw [State.getB_raise, State.raise_cfg]
  split
  · exact .unless .ok
  · exact .error

/-- The result of every command is a function of the state whose errors do not depend on the three status registers. -/
theorem exists_result_failsAs_raise (i : Instr) : ∃ result : State → Except ErrorKind State,
    (∀ s, exec i s = finish s i (result s)) ∧ ∀ s k w, FailsAs (result s) (result (s.raise k w)) := by
  cases i with
  | nop | clrerr | srst | dcSetm | srClr => exact ⟨_, fun _ => rfl, fun _ _ _ => .ok⟩
  | li | lui | bsSize | bsSizeb | lnCmp | aiCnt | dcEccl | dcGetm | srNrow =>
    exact ⟨_, fun _ => rfl, fun _ _ _ => .ok⟩
  | lnClr | lnAdd | lnSub | lnShu | lnShd | aiTilde | bsClr => exact ⟨_, fun _ => rfl, fun _ _ _ => .ok⟩
  | lnGetb | lnSetb | bsTob | bsXor | bsSet => exact ⟨_, fun _ => rfl, fun _ _ _ => .unless .ok⟩
  | bsRem | aiHibc => exact ⟨_, fun _ => rfl, fun _ _ _ => .unless (.unless .ok)⟩
  | srRle | srFour => exact ⟨_, fun _ => rfl, fun _ _ _ => .unless (.unless (.unless .ok))⟩
  | dcPad => exact ⟨_, fun _ => rfl, fun _ _ _ => .unless (.ite .ok .ok)⟩
  | lnMul | lnLdec => exact ⟨_, fun _ => rfl, fun _ _ _ => .ite .ok .error⟩
  | ckMod10 | ckMod11 | ckMod43 | ckOpcc => exact ⟨_, fun _ => rfl, fun _ _ _ => checksum_failsAs⟩
  | srRlen | srGetm | srGeth => exact ⟨_, fun _ => rfl, fun _ _ _ => readRow_failsAs⟩
  | rsGete => exact ⟨_, fun _ => rfl, fun _ _ _ => readSym_failsAs⟩
  | rsGetg | rsGetl | rsGeta => exact ⟨_, fun _ => rfl, fun _ _ _ => .unless readSym_failsAs⟩
  | bsApb => exact ⟨_, fun _ => rfl, fun _ _ _ => growTo_failsAs⟩
  | bsApbs | bsIns => exact ⟨_, fun _ => rfl, fun _ _ _ => .unless growTo_failsAs⟩
  | rsEncn => exact ⟨_, fun _ => rfl, fun _ _ _ => .unless (.unless rsEncode_failsAs)⟩
  | rsEncw => exact ⟨_, fun _ => rfl, fun _ _ _ => .unless rsEncode_failsAs⟩
  | bclr | blen => exact ⟨_, fun _ => rfl, fun _ _ _ => withBuf_failsAs fun _ => .ok⟩
  | bput =>
    refine ⟨_, fun _ => rfl, fun s k w => withBuf_failsAs fun r => ?_⟩
    rw [s.bufLen_raise]
    exact .unless (.unless .ok)
  | bget =>
    refine ⟨_, fun _ => rfl, fun s k w => withBuf_failsAs fun r => ?_⟩
    rw [s.bufRead_raise, s.num_raise]
    split
    · exact .ok
    · exact .error
  | bsGet | aiGetr =>
    refine ⟨_, fun _ => rfl, fun s k w => ?_⟩
    simp only [s.getB_raise, s.raise_air, s.num_raise]
    split
    · exact .ok
    · exact .error
  | dcTgt =>
    refine ⟨_, fun _ => rfl, fun s k w => .unless ?_⟩
    rw [s.getB_raise]
    split
    · exact .ok
    · exact .error
  | rsInit =>
    refine ⟨_, fun _ => rfl, fun s k w => .ite ?_ .error⟩
    rw [s.getX_raise, s.num_raise]
    split
    · exact .ok
    · exact .error
  | aiGs1 =>
    refine ⟨_, fun _ => rfl, fun s k w => ?_⟩
    rw [s.getC_raise, s.raise_cfg]
    split
    · exact .ok
    · exact .error
  | dcEnc =>
    refine ⟨_, fun _ => rfl, fun s k w => .unless ?_⟩
    rw [s.getC_raise, s.raise_cfg, s.num_raise]
    split
    · exact dcAppend_failsAs
    · exact .error

/-- A command that failed leaves a state in which it fails again with the same kind, and that changes nothing. -/
theorem exec_again_of_failure {i : Instr} {t : State} (h : exec i s = .next t) (hst : t.st ≠ 0) :
    exec i t = .next t := by
  obtain ⟨result, hexec, hfails⟩ := exists_result_failsAs_raise i
  obtain ⟨u, -, rfl⟩ | ⟨k, hk, rfl⟩ := finish_next (hexec s ▸ h)
  · exact absurd rfl hst
  · rw [hexec, hfails s k (encode i) k hk, finish_error, State.raise_raise]

/-- Settles O11: no word stops a run, and a failure is repeated by the same test. -/
theorem failuresAreNotFatal : Obligations.FailuresAreNotFatal :=
  ⟨run_words_completes, fun _ _ _ => exec_again_of_failure⟩

end Sys2Proof.Machine
end

section
/-! Unit SR (R341 to R350): the modules of a run-length row and of a four-state row, position by position, and each command by
its tests. -/

namespace Sys2Proof.Machine

variable {s : State} {k : Ix} {h8 : BitVec 8} {ra rb : RegNum} {imm16 : BitVec 16}

theorem onlyRows_setRows (rs : List Row) : OnlyRows s (s.setRows rs).succeed := rfl

/-! Run-length rows (R344). -/

/-- Module `q` of run `j`, after the modules of the runs before it; runs change colour in turn. -/
theorem getElem?_expandRuns : ∀ {cs : List Char8} {j q : Nat} {c : Char8} (v : Bool), cs[j]? = some c → q < dval c →
    (expandRuns v cs)[((cs.take j).map dval).sum + q]? = some (barIf (if j % 2 = 0 then v else !v))
  | [], j, _, _, _, h, _ => nomatch h
  | d :: cs, 0, q, c, v, h, hq => by
    obtain rfl : d = c := Option.some.inj h
    have hrun : q < (List.replicate (dval d) (barIf v)).length := by rwa [List.length_replicate]
    simp [expandRuns, List.getElem?_append_left hrun, hq]
  | d :: cs, j + 1, q, c, v, h, hq => by
    have ih := getElem?_expandRuns (!v) (cs := cs) (j := j) h hq
    have hcolour : (if j % 2 = 0 then !v else !!v) = if (j + 1) % 2 = 0 then v else !v := by
      have hparity : (j + 1) % 2 = 0 ↔ ¬j % 2 = 0 := by omega
      simp only [hparity, ite_not, Bool.not_not]
    rw [← hcolour, ← ih, expandRuns, List.take_succ_cons, List.map_cons, List.sum_cons, Nat.add_assoc,
      List.getElem?_append_right (by rw [List.length_replicate]; omega), List.length_replicate, Nat.add_sub_cancel_left]

/-! Four-state rows (R345, R346). -/

theorem fourState_isSome_iff {map : Vector (Bool × Bool × Bool) 4} {c : Char8} :
    (fourState map c).isSome = true ↔ 0x30 ≤ c.toNat ∧ c.toNat ≤ 0x33 := by
  unfold fourState
  split
  · simp; omega
  · simp; omega

theorem all_fourState_iff {map : Vector (Bool × Bool × Bool) 4} {cs : List Char8} :
    (cs.all fun c => (fourState map c).isSome) = true ↔ ∀ c ∈ cs, 0x30 ≤ c.toNat ∧ c.toNat ≤ 0x33 :=
  List.all_eq_true.trans (forall₂_congr fun _ _ => fourState_isSome_iff)

theorem fourState_eq_toList {map : Vector (Bool × Bool × Bool) 4} {c : Char8} (h : 0x30 ≤ c.toNat) :
    fourState map c = map.toList[c.toNat - 0x30]? := by
  rw [fourState, if_pos h, Vector.getElem?_toList]

/-- The two cells of character `j` in a row: its presence, then a space. -/
theorem getElem?_fourRow {map : Vector (Bool × Bool × Bool) 4} {row : Bool × Bool × Bool → Bool}
    {u : Bool × Bool × Bool} {c : Char8} (hu : fourState map c = some u) : ∀ {cs : List Char8} {j : Nat}, cs[j]? = some c →
      (fourRow map row cs)[2 * j]? = some (barIf (row u)) ∧ (fourRow map row cs)[2 * j + 1]? = some .space
  | [], _, h => nomatch h
  | d :: cs, 0, h => by
    obtain rfl : d = c := Option.some.inj h
    simp [fourRow, hu]
  | d :: cs, j + 1, h => getElem?_fourRow hu (cs := cs) (j := j) h

/-- The three rows that `SR.FOUR` appends for a string. -/
def fourRows (map : Vector (Bool × Bool × Bool) 4) (cs : List Char8) : List Row :=
  [{ mods := fourRow map (fun u => u.1) cs, h := 8 }, { mods := fourRow map (fun u => u.2.1) cs, h := 5 },
    { mods := fourRow map (fun u => u.2.2) cs, h := 8 }]

/-! Success. -/

theorem exec_srRle (hdigits : ∀ c ∈ s.getC k, isDigit c = true) (hrows : s.rows.length < s.cfg.rowMax)
    (hmods : runTotal (s.getC k) ≤ s.cfg.rowLenMax) : exec (.srRle k h8) s =
      .next (s.setRows (s.rows ++ [{ mods := expandRuns true (s.getC k), h := h8 }])).succeed :=
  exec_eq_of_ok rfl <| by
    rw [List.all_eq_true.mpr hdigits, Bool.not_true, if_neg Bool.false_ne_true, if_neg (Nat.not_le.mpr hrows),
      if_neg (Nat.not_lt.mpr hmods)]

theorem exec_srFour (hset : ∀ c ∈ s.getC k, 0x30 ≤ c.toNat ∧ c.toNat ≤ 0x33)
    (hrows : s.rows.length + 3 ≤ s.cfg.rowMax) (hmods : 2 * (s.getC k).length ≤ s.cfg.rowLenMax) :
    exec (.srFour k) s = .next (s.setRows (s.rows ++ fourRows s.cfg.fourstateMap (s.getC k))).succeed :=
  exec_eq_of_ok rfl <| by
    rw [all_fourState_iff.mpr hset, Bool.not_true, if_neg Bool.false_ne_true, if_neg (Nat.not_lt.mpr hrows),
      if_neg (Nat.not_lt.mpr hmods)]
    rfl

theorem readRow_of_read {r : Row} {f : Row → Option Word} {v : Word} (hr : s.rows[s.num rb]? = some r)
    (hv : f r = some v) : readRow s ra rb f = .ok (s.setX ra v) := by
  rw [readRow_eq, hr, Option.bind_some, hv]

/-! Failure. -/

theorem srRle_fails_invalidCharacter (h : ∃ c ∈ s.getC k, isDigit c = false) :
    FailsWith (.srRle k h8) s .invalidCharacter :=
  failsWith_of_error rfl (if_pos (by rw [eq_false_of_ne_true (not_all_of_exists h), Bool.not_false]))

theorem srRle_fails_lengthExceeded (hdigits : ∀ c ∈ s.getC k, isDigit c = true)
    (h : s.rows.length = s.cfg.rowMax ∨ s.cfg.rowLenMax < runTotal (s.getC k)) :
    FailsWith (.srRle k h8) s .lengthExceeded :=
  failsWith_of_error rfl <| by
    rw [List.all_eq_true.mpr hdigits, Bool.not_true, if_neg Bool.false_ne_true]
    obtain hrows | hmods := h
    · exact if_pos hrows.ge
    · rw [if_pos hmods, ite_self]

theorem srFour_fails_invalidCharacter (h : ∃ c ∈ s.getC k, c.toNat < 0x30 ∨ 0x33 < c.toNat) :
    FailsWith (.srFour k) s .invalidCharacter := by
  obtain ⟨c, hc, hout⟩ := h
  have hnone : (fourState s.cfg.fourstateMap c).isSome = false := by
    rw [Bool.eq_false_iff, ne_eq, fourState_isSome_iff]
    omega
  exact failsWith_of_error rfl (if_pos (by rw [eq_false_of_ne_true (not_all_of_exists ⟨c, hc, hnone⟩), Bool.not_false]))

theorem srFour_fails_lengthExceeded (hset : ∀ c ∈ s.getC k, 0x30 ≤ c.toNat ∧ c.toNat ≤ 0x33)
    (h : s.cfg.rowMax < s.rows.length + 3 ∨ s.cfg.rowLenMax < 2 * (s.getC k).length) :
    FailsWith (.srFour k) s .lengthExceeded :=
  failsWith_of_error rfl <| by
    rw [all_fourState_iff.mpr hset, Bool.not_true, if_neg Bool.false_ne_true]
    obtain hrows | hmods := h
    · exact if_pos hrows
    · rw [if_pos hmods, ite_self]

/-- A read of a row that does not exist finds nothing. -/
theorem readRow_beyond (h : s.rows.length ≤ s.num rb) (f : Row → Option Word) :
    readRow s ra rb f = .error .outOfRange := by
  rw [readRow_eq, List.getElem?_eq_none h, Option.bind_none]

theorem srGetm_fails_column {r : Row} (hr : s.rows[s.num rb]? = some r) (h : r.mods.length ≤ imm16.toNat) :
    FailsWith (.srGetm ra rb imm16) s .outOfRange :=
  failsWith_of_error rfl <| by rw [readRow_eq, hr, Option.bind_some, List.getElem?_eq_none h, Option.map_none]

/-! The obligations. -/

/-- Settles O57: the row is the expansion of the digits, whose length is their sum and whose first run is of bars. -/
theorem runLengthRow : Obligations.RunLengthRow := fun _ _ _ hdigits hrows hmods =>
  ⟨_, _, exec_srRle hdigits hrows hmods, onlyRows_setRows _, rfl, rfl, expandRuns_length true _,
    fun j _ _ hc hq => by rw [getElem?_expandRuns true hc hq]; split <;> rfl⟩

/-- Settles O58: each row holds two cells for each character, the first its presence in that row. -/
theorem fourStateRows : Obligations.FourStateRows := by
  refine fun s k => ⟨⟨_, exec_eq_of_ok rfl rfl, onlyRows_setRows [], rfl⟩, fun hset hrows hmods => ?_⟩
  refine ⟨_, _, _, _, exec_srFour hset hrows hmods, onlyRows_setRows _, rfl, rfl, rfl, rfl, ?length, fun j c hc => ?cells⟩
  case length => simp [fourRow_length]
  case cells =>
    have hrange := hset c (List.mem_of_getElem? hc)
    obtain ⟨u, hu⟩ := Option.isSome_iff_exists.mp (fourState_isSome_iff.mpr hrange)
    have hcells (row) := getElem?_fourRow (map := s.cfg.fourstateMap) (row := row) hu hc
    refine ⟨?_, u, (fourState_eq_toList hrange.1).symm.trans hu, (hcells _).1, (hcells _).1, (hcells _).1⟩
    simp [hcells]

/-- Settles O59: a count, a length, a height and a cell value keep their value in a register. -/
theorem rowReads : Obligations.RowReads := by
  refine fun s ra rb imm16 => ⟨fun hp hlen => ?count, fun r hr => ⟨fun hp hlen => ?length, ?height, fun v hv => ?cell⟩⟩
  case count => exact exists_onlyX_of_exec (exec_eq_of_ok rfl rfl) (count_toNat (hlen.trans_lt hp.rows))
  case length =>
    exact exists_onlyX_of_exec (exec_eq_of_ok rfl (readRow_of_read hr rfl)) (natWord_toNat _ (hlen.trans_lt hp.modules))
  case height =>
    exact exists_onlyX_of_exec (exec_eq_of_ok rfl (readRow_of_read hr rfl)) (BitVec.toNat_setWidth_of_le (by decide))
  case cell =>
    obtain ⟨t, hexec, hvalue, honly⟩ := exists_onlyX_of_exec
      (exec_eq_of_ok (i := .srGetm ra rb imm16) rfl (readRow_of_read hr (congrArg _ hv)))
      (BitVec.toNat_setWidth_of_le (by decide))
    refine ⟨t, hexec, honly, hvalue.trans ?_⟩
    cases v <;> rfl

/-- Settles O60: the character test comes first, then the limits; a read finds its row and column or fails. -/
theorem symbolRowErrors : Obligations.SymbolRowErrors := fun _ _ _ _ _ _ =>
  ⟨srRle_fails_invalidCharacter, srRle_fails_lengthExceeded, srFour_fails_invalidCharacter, srFour_fails_lengthExceeded,
    fun h => ⟨failsWith_of_error rfl (readRow_beyond h _), failsWith_of_error rfl (readRow_beyond h _),
      failsWith_of_error rfl (readRow_beyond h _)⟩,
    fun _ => srGetm_fails_column⟩

end Sys2Proof.Machine
end
